-- ==== Sys2Proof/Word.lean ====
section
/-! DEFINITION. The word types of DMXTX: the widths of 00_scope.md R7 and 10_state.md R20.
Bit 0 is the least significant bit (00_scope.md R8). -/

namespace Sys2Proof

/-- An operation word: 48 bits (30_encoding.md R70). -/
abbrev OpWord := BitVec 48

/-- A duration in microseconds: 32 bits, unsigned (R7, R28). -/
abbrev Micros := BitVec 32

/-- A fade time in milliseconds: 16 bits, unsigned (R7, R33). -/
abbrev Millis := BitVec 16

/-- A byte on the DMX line (R25). -/
abbrev Byte := BitVec 8

/-- A current level: unsigned Q8.8, 8 integer bits above 8 fraction bits (R7, R33). -/
abbrev Fixed := BitVec 16

/-- The number of channel bytes of a frame (00_scope.md R6: `CHANNEL_COUNT`). -/
abbrev channelCount : Nat := 512

/-- The number of entries of the Channel Store, slots 0 to 512 (00_scope.md R6: `NSLOT`). -/
abbrev nSlot : Nat := channelCount + 1

/-- The largest legal level (30_encoding.md R71: `val` legal 0 to 255). -/
abbrev maxLevel : Nat := 255

/-- The largest current level in Q8.8, `255 << 8` (10_state.md R34). -/
abbrev maxFixed : Nat := 65280

end Sys2Proof
end

