-- ==== Sys2Proof/Config.lean ====
section
/-! DEFINITION. The configuration record of 00_scope.md R6 ("constants fixed when the block is built; no operation
changes one"), the Channel Store's entry type, and the `OPEN` parameters of the built machine as opaque constants. -/

namespace Sys2Proof

/-- `TX_MODE` (00_scope.md R6, 92_eei_decisions.md D10): the output primitive that carries the frame. -/
inductive TxMode where
  | uart
  | bitbang
  deriving DecidableEq, Repr, Inhabited

/-- `STOP_BITS` (00_scope.md R6, D12): the source's range is 1 to 2 (90_conflicts.md C4); the value is `two`.
DESIGN CHOICE (log 5): the parameter ranges over the source's two values. -/
inductive StopBits where
  | one
  | two
  deriving DecidableEq, Repr, Inhabited

/-- One entry of the Channel Store (10_state.md R33). -/
structure Entry where
  /-- current level, unsigned Q8.8 -/
  cur : Fixed
  /-- desired level, 0 to 255 -/
  tgt : BitVec 8
  /-- time left to reach the target, ms -/
  rem : Millis
  deriving DecidableEq, Repr, Inhabited

/-- What an index that a store does not list reads as: the default scene's entry `(0, 0, 0)` (10_state.md R40). -/
def Entry.zero : Entry := { cur := 0, tgt := 0, rem := 0 }

/-- The Channel Store, the block's only memory (10_state.md R33, R37), as the list of (index, entry) pairs that differ
from `Entry.zero`, indices rising. An entry is three fields and never bytes (20_memory.md R58), so a cell holds an
entry (log 7). Its operations and its canonical form `Memory.wf` stand in Machine/Ops.lean. -/
abbrev Memory := List (Nat × Entry)

/-- The parameters of 00_scope.md R6 that are not the same in every block. A step reads them and writes none
(10_state.md R35). -/
structure Config where
  /-- `TX_MODE` -/
  txMode : TxMode
  /-- `STOP_BITS` -/
  stopBits : StopBits
  /-- `SETTLE_US`, the settle delay of `Init` -/
  settleUs : Micros
  /-- `MBB_US`, mark before break -/
  mbbUs : Micros
  /-- `BREAK_US`; at least 92 for a valid frame, which the block does not check (70_reset_and_hazards.md R243) -/
  breakUs : Micros
  /-- `MAB_US`, mark after break; at least 12 for a valid frame, not checked (R243) -/
  mabUs : Micros
  /-- `MARK_US`, the inter-byte mark; 0 selects back-to-back transmission -/
  markUs : Micros
  /-- `DELTA_MS`, the time step of every fade sweep (42_fade_pipeline.md R151) -/
  deltaMs : Millis
  /-- `INIT_SCENE`, the store's content after reset -/
  initScene : Memory
  deriving DecidableEq, Repr

namespace Config

/-- `TX_MODE` of the built block: `OPEN` (D10). -/
opaque builtTxMode : TxMode
/-- `SETTLE_US` of the built block: `OPEN` (D23). -/
opaque builtSettleUs : Micros
/-- `MBB_US` of the built block: `OPEN` (D23). -/
opaque builtMbbUs : Micros
/-- `BREAK_US` of the built block: `OPEN` (D23). -/
opaque builtBreakUs : Micros
/-- `MAB_US` of the built block: `OPEN` (D23). -/
opaque builtMabUs : Micros
/-- `MARK_US` of the built block: `OPEN` (D9, D23). -/
opaque builtMarkUs : Micros
/-- `DELTA_MS` of the built block: `OPEN` (D16). -/
opaque builtDeltaMs : Millis

/-- The built block's record: `OPEN` parameters are uninterpreted constants (log 3), `STOP_BITS` is 2 (R6), and
`INIT_SCENE` is the spec's default, all zero (R6; log 4). -/
def built : Config :=
  { txMode := builtTxMode, stopBits := .two, settleUs := builtSettleUs, mbbUs := builtMbbUs,
    breakUs := builtBreakUs, mabUs := builtMabUs, markUs := builtMarkUs, deltaMs := builtDeltaMs,
    initScene := [] }

end Config

end Sys2Proof
end

