-- ==== Sys2Proof/Syntax.lean ====
section
/-! DEFINITION. The six operations of spec/opcode_table.json, one constructor a row, with the operands as the natural
numbers of the assembler (30_encoding.md R80). -/

namespace Sys2Proof

/-- The operations: four host commands and two line events (30_encoding.md R70, R74). -/
inductive Instr where
  /-- START (43_host_commands.md R171) -/
  | start
  /-- STOP (R172) -/
  | stop
  /-- SET c, v: store index and level (R173) -/
  | set (c v : Nat)
  /-- FADE c, v, t: store index, level, duration in ms (R174) -/
  | fade (c v t : Nat)
  /-- EV.TIMER, the TimerExpired event (40_fsm_sequencer.md R91) -/
  | evTimer
  /-- EV.BYTE, the ByteTransmitted event (R92) -/
  | evByte
  deriving DecidableEq, Repr

/-- The two contexts (60_exceptions.md R209): the host's foreground, and the two event handlers. -/
inductive Context where
  | foreground
  | interrupt
  deriving DecidableEq, Repr

/-- The two events (60_exceptions.md R194). -/
inductive Event where
  | timerExpired
  | byteTransmitted
  deriving DecidableEq, Repr

end Sys2Proof
end

