-- ==== Sys2Proof/WellFormed.lean ====
section
/-! DEFINITION. Which instructions have a word: every operand fits the field that carries it (30_encoding.md R71).
An operand outside its LEGAL range but inside its field is well formed: "it is the hardware that refuses it" (R80). -/

namespace Sys2Proof

/-- A store index fits the 12-bit field `ch`. -/
abbrev fitsCh (c : Nat) : Prop := c < 2 ^ 12

/-- A level fits the 16-bit field `val`. -/
abbrev fitsVal (v : Nat) : Prop := v < 2 ^ 16

/-- A duration fits the 16-bit field `ms`. -/
abbrev fitsMs (t : Nat) : Prop := t < 2 ^ 16

/-- The instruction's operands fit their fields. -/
def wellFormed (i : Instr) : Bool :=
  match i with
  | .start => true
  | .stop => true
  | .set c v => decide (fitsCh c) && decide (fitsVal v)
  | .fade c v t => decide (fitsCh c) && decide (fitsVal v) && decide (fitsMs t)
  | .evTimer => true
  | .evByte => true

/-- The instruction has a word. -/
abbrev WellFormed (i : Instr) : Prop := wellFormed i = true

end Sys2Proof
end

