-- ==== Sys2Proof/Decode.lean ====
section
/-! DEFINITION. The 48-bit operation word: its fields, the decoder, the encoder, the opcode table as data and the
assembler's spelling (30_encoding.md R70 to R80). -/

namespace Sys2Proof

/-- `op`, bits 47:44 (R71). -/
def opField (w : OpWord) : Nat := (w.extractLsb' 44 4).toNat

/-- `ch`, bits 43:32 (R71). -/
def chField (w : OpWord) : Nat := (w.extractLsb' 32 12).toNat

/-- `val`, bits 31:16 (R71). -/
def valField (w : OpWord) : Nat := (w.extractLsb' 16 16).toNat

/-- `ms`, bits 15:0 (R71). -/
def msField (w : OpWord) : Nat := (w.extractLsb' 0 16).toNat

/-- Why a word is no operation (R75 steps 1 and 2). -/
inductive DecodeError where
  /-- `op` is no operation code (R75 step 1, R76) -/
  | illegalOp
  /-- a field the format does not use is not zero (R72, R75 step 2) -/
  | unusedFieldNonZero
  deriving DecidableEq, Repr

/-- A format-N word: `ch`, `val` and `ms` must be zero (R72). -/
def decodeFormatN (w : OpWord) (i : Instr) : Except DecodeError Instr :=
  if chField w = 0 ∧ valField w = 0 ∧ msField w = 0 then .ok i else .error .unusedFieldNonZero

/-- A format-CV word: `ms` must be zero (R72). -/
def decodeFormatCV (w : OpWord) (i : Instr) : Except DecodeError Instr :=
  if msField w = 0 then .ok i else .error .unusedFieldNonZero

/-- The one decoder, for host words and trace words alike (R74, R75 steps 1 and 2, R78). Whether an event word may
stand where it is presented is the port's question, not the decoder's (Machine/HostPort.lean). -/
def decode (w : OpWord) : Except DecodeError Instr :=
  match opField w with
  | 1 => decodeFormatN w .start
  | 2 => decodeFormatN w .stop
  | 3 => decodeFormatCV w (.set (chField w) (valField w))
  | 4 => .ok (.fade (chField w) (valField w) (msField w))
  | 8 => decodeFormatN w .evTimer
  | 9 => decodeFormatN w .evByte
  | _ => .error .illegalOp

/-- The host's way in: the instruction the decoder reads from a table row's word of `nbits` bits; the bits above
`nbits` are zero. A value that has no 48-bit word is refused. -/
def decodeTableWord (nbits w : Nat) : Option Instr :=
  if w % 2 ^ nbits < 2 ^ 48 then
    match decode (BitVec.ofNat 48 (w % 2 ^ nbits)) with
    | .ok i => some i
    | .error _ => none
  else none

/-- A word from its four fields (R71). -/
def packWord (op : BitVec 4) (ch : BitVec 12) (val ms : BitVec 16) : OpWord := op ++ ch ++ val ++ ms

/-- The word of an instruction (R72, R74). -/
def encode (i : Instr) : OpWord :=
  match i with
  | .start => packWord 1 0 0 0
  | .stop => packWord 2 0 0 0
  | .set c v => packWord 3 (BitVec.ofNat 12 c) (BitVec.ofNat 16 v) 0
  | .fade c v t => packWord 4 (BitVec.ofNat 12 c) (BitVec.ofNat 16 v) (BitVec.ofNat 16 t)
  | .evTimer => packWord 8 0 0 0
  | .evByte => packWord 9 0 0 0

/-- The class of an operation: bit 47 of its word, 0 for a host command, 1 for a line event (R74). -/
def Instr.context (i : Instr) : Context :=
  match i with
  | .start => .foreground
  | .stop => .foreground
  | .set _ _ => .foreground
  | .fade _ _ _ => .foreground
  | .evTimer => .interrupt
  | .evByte => .interrupt

/-- The event operation of an event (R91, R92). -/
def Event.instr (e : Event) : Instr :=
  match e with
  | .timerExpired => .evTimer
  | .byteTransmitted => .evByte

/-- One row of spec/opcode_table.json: a word `w` is of the row when `w &&& mask = pattern`. -/
structure OpcodeRow where
  mnemonic : String
  pattern : OpWord
  mask : OpWord
  deriving DecidableEq, Repr

/-- The six rows of spec/opcode_table.json. -/
def opcodeTable : List OpcodeRow :=
  [ ⟨"START", 0x100000000000, 0xFFFFFFFFFFFF⟩,
    ⟨"STOP", 0x200000000000, 0xFFFFFFFFFFFF⟩,
    ⟨"SET", 0x300000000000, 0xF0000000FFFF⟩,
    ⟨"FADE", 0x400000000000, 0xF00000000000⟩,
    ⟨"EV.TIMER", 0x800000000000, 0xFFFFFFFFFFFF⟩,
    ⟨"EV.BYTE", 0x900000000000, 0xFFFFFFFFFFFF⟩ ]

/-- A word is of a row. -/
def OpcodeRow.covers (r : OpcodeRow) (w : OpWord) : Bool := decide (w &&& r.mask = r.pattern)

/-- The mnemonic of an instruction (R74). -/
def Instr.mnemonic (i : Instr) : String :=
  match i with
  | .start => "START"
  | .stop => "STOP"
  | .set _ _ => "SET"
  | .fade _ _ _ => "FADE"
  | .evTimer => "EV.TIMER"
  | .evByte => "EV.BYTE"

/-- The assembler's spelling: mnemonic and decimal operands separated by commas (R80). -/
def Instr.asm (i : Instr) : String :=
  match i with
  | .set c v => "SET " ++ toString c ++ ", " ++ toString v
  | .fade c v t => "FADE " ++ toString c ++ ", " ++ toString v ++ ", " ++ toString t
  | .start => "START"
  | .stop => "STOP"
  | .evTimer => "EV.TIMER"
  | .evByte => "EV.BYTE"

end Sys2Proof
end

