-- ==== Sys2Proof/Machine/State.lean ====
section
/-! DEFINITION. The state record of 10_state.md R20 with its types, the reasons a step can stop, and the state after
reset (10_state.md R40). -/

namespace Sys2Proof.Machine

open Sys2Proof

/-- The sequencer's state: the nine states of the source, `Idle`, and the reserved codes 10 to 15 (10_state.md R21). -/
inductive FsmState where
  /-- code 0, `Idle`: not started, or stopped -/
  | idle
  /-- code 1, `Init` -/
  | init
  /-- code 2, `MarkBeforeBreak` -/
  | markBeforeBreak
  /-- code 3, `Break` -/
  | lineBreak
  /-- code 4, `MarkAfterBreak` -/
  | markAfterBreak
  /-- code 5, `TxStartCode` -/
  | txStartCode
  /-- code 6, `TxStartMark` -/
  | txStartMark
  /-- code 7, `TxByte` -/
  | txByte
  /-- code 8, `TxMark` -/
  | txMark
  /-- code 9, `Update`, never held at the end of a step -/
  | update
  /-- codes 10 to 15, `10 + k`, never written by any rule -/
  | reserved (k : Fin 6)
  deriving DecidableEq, Repr

/-- A level of the DMX line: space is low (logic 0), mark is high and idle (logic 1) (00_scope.md R12). -/
inductive Level where
  | space
  | mark
  deriving DecidableEq, Repr

/-- The output actions (60_exceptions.md R207). -/
inductive Action where
  /-- `LINE_INIT`, the driver's configure-pin -/
  | lineInit
  /-- `LINE(l)`, the driver's write-pin -/
  | line (l : Level)
  /-- `BREAK_REQ`, the driver's uart-break-request -/
  | breakReq
  /-- `SEND(b)`, the driver's uart-send-byte -/
  | send (b : Byte)
  /-- `ARM(d)`, the driver's start-one-shot-timer -/
  | arm (d : Micros)
  deriving DecidableEq, Repr

/-- The response codes of a host operation (60_exceptions.md R190). -/
inductive Resp where
  /-- code 0, performed -/
  | ok
  /-- code 1, field `ch` above 512 -/
  | errChannel
  /-- code 2, field `val` above 255 -/
  | errValue
  /-- code 3, the word is not a host command -/
  | errIllegal
  deriving DecidableEq, Repr

/-- What arrives at the input ports (60_exceptions.md R208), one element a step. -/
inductive Input where
  /-- `cmd[47:0]` with `cmd_valid`: a word at the host port -/
  | cmd (w : OpWord)
  /-- a pulse on `ev_timer` or on `ev_byte` -/
  | event (e : Event)
  /-- `rst` -/
  | rst
  deriving DecidableEq, Repr

/-- What `Trans(state, ev)` answers (40_fsm_sequencer.md R104 to R112). -/
inductive Transition where
  /-- the event is not accepted (R112) -/
  | ignore
  /-- `state <- next` (R104 to R107, R110, R111) -/
  | goto (next : FsmState)
  /-- the byte is complete: `ByteDone()` (R108) -/
  | byteDone
  /-- one bit period has elapsed (R109) -/
  | bitElapsed
  deriving DecidableEq, Repr

/-- The machine's state: the record of 10_state.md R20 and three fields of the model's own, `cfg`, `inputs` and
`resps`. -/
structure State where
  /-- the configuration record (00_scope.md R6), a parameter of the step that no step writes (log 3) -/
  cfg : Config
  /-- `state` (R21) -/
  state : FsmState
  /-- `slot`, the byte being or next to be transmitted (R22) -/
  slot : BitVec 10
  /-- `bit`, the bit cell within the byte, `BITBANG` mode only (R23) -/
  bit : BitVec 4
  /-- `txbyte`, the byte latched for transmission (R25) -/
  txbyte : Byte
  /-- `lock`, the re-entrancy lock of the event entry point (R26) -/
  lock : Bool
  /-- `stop_req`, a stop is requested and not yet honoured (R27) -/
  stopReq : Bool
  /-- `tmr_armed`, the one-shot timer is armed and has not fired (R28) -/
  tmrArmed : Bool
  /-- `tmr_dur`, the duration of the current or last arming (R28) -/
  tmrDur : Micros
  /-- `uart_busy`, a byte handed to the UART has not completed (R29) -/
  uartBusy : Bool
  /-- `line`, the level last driven, `none` while unspecified (R30; log 6) -/
  line : Option Level
  /-- `out`, every output action since reset, in order (R31) -/
  out : List Action
  /-- `vtime_us`, the ghost counter of virtual time (R32) -/
  vtimeUs : Nat
  /-- `store[0..512]`, the Channel Store (R33) -/
  store : Memory
  /-- every response code answered at the host port since reset, in order (log 8) -/
  resps : List Resp
  /-- what arrives at the input ports next, first element first (log 1) -/
  inputs : List Input
  deriving DecidableEq, Repr

/-- The faults of the model. The block itself has none (60_exceptions.md R193). -/
inductive Fault where
  /-- Raised by `readEntry` and `writeEntry` for an index above 512, which names no entry (20_memory.md R54). Only the
  byte read with `slot > 512` can raise it, and no run reaches such a state (40_fsm_sequencer.md R114 (e)). Safe: the
  model stops where the spec describes nothing (93_implementation_defined.md U2; log 9). -/
  | noSuchEntry
  deriving DecidableEq, Repr

/-- The refusals of the model. -/
inductive Refusal where
  /-- Raised by `exec` for an instruction without a meaning. Safe. No arm uses it. -/
  | notModelled (mnemonic : String)
  /-- Raised by `byteDone` when `slot > 512` (93_implementation_defined.md U2, treatment `refuse`; log 9). Safe: no
  run reaches such a state. -/
  | slotOutOfRange
  /-- Raised by `txAction` and by the bit transition when `bit > 8 + STOP_BITS` in `BITBANG` mode (U2, treatment
  `refuse`; log 10). Safe: no run reaches such a state. -/
  | bitOutOfRange
  /-- Raised by `action` for the codes 10 to 15, whose action is not defined (U2; log 11). Safe: no transition enters
  such a code. -/
  | noAction
  deriving DecidableEq, Repr

/-- What a step answers. -/
abbrev Result := Host.Outcome State Fault Refusal

/-- The machine right after reset (10_state.md R40, 70_reset_and_hazards.md R230): `Idle`, zeros, `line` unspecified,
`out` empty, the store the default scene of the built block (log 4). `resps` and `inputs` are the model's own and
empty: nothing has been answered and nothing arrives (DESIGN CHOICE, log 16). -/
def State.reset : State :=
  { cfg := Config.built
    state := .idle
    slot := 0
    bit := 0
    txbyte := 0
    lock := false
    stopReq := false
    tmrArmed := false
    tmrDur := 0
    uartBusy := false
    line := none
    out := []
    vtimeUs := 0
    store := Config.built.initScene
    resps := []
    inputs := [] }

end Sys2Proof.Machine
end

