-- ==== Sys2Proof/Machine/Operands.lean ====
section
/-! DEFINITION. Operand forms: the bounds checks of a host command, the conversions between levels and Q8.8, the
numbers derived from the configuration, and the codes of states, responses and actions. -/

namespace Sys2Proof

/-! ### Numbers derived from the configuration record (00_scope.md R6) -/

/-- `BAUD`, bit/s. -/
def Config.baud : Nat := 250000

/-- `DATA_BITS`. There is no parity bit (`PARITY` is none). -/
def Config.dataBits : Nat := 8

/-- `BIT_US`: one bit period, 1 000 000 / `BAUD` = 4 µs. -/
def Config.bitUs : Nat := 1000000 / Config.baud

/-- `STOP_BITS` as a number. -/
def Config.stopCount (c : Config) : Nat :=
  match c.stopBits with
  | .one => 1
  | .two => 2

/-- The last value of `bit` within a byte, `8 + STOP_BITS` (10_state.md R23). -/
def Config.lastBit (c : Config) : Nat := Config.dataBits + c.stopCount

/-- `BYTE_US = (1 + DATA_BITS + STOP_BITS) × BIT_US`, 44 µs with two stop bits. -/
def Config.byteUs (c : Config) : Nat := (1 + Config.dataBits + c.stopCount) * Config.bitUs

/-! ### An entry in Q8.8 -/

/-- `cur[15:8]`: the byte sent for an entry, the fraction dropped and not rounded (41_byte_transmit.md R137). -/
def Entry.sentByte (e : Entry) : Byte := e.cur.extractLsb' 8 8

/-- `T = tgt << 8`, the target in Q8.8 (42_fade_pipeline.md R152). -/
def Entry.target (e : Entry) : Nat := e.tgt.toNat * 256

end Sys2Proof

namespace Sys2Proof.Machine

open Sys2Proof

/-! ### Operand checks and conversions -/

/-- Steps 3 and 4 of the checking order (30_encoding.md R75): the channel before the value; `none` when both are
legal. -/
def checkOperands (c v : Nat) : Option Resp :=
  if c > channelCount then some .errChannel
  else if v > maxLevel then some .errValue
  else none

/-- `v << 8`: a level as a Q8.8 current level (43_host_commands.md R173, 42_fade_pipeline.md R152). -/
def levelToFixed (v : Nat) : Fixed := BitVec.ofNat 16 (v * 256)

/-- What SET leaves in an entry: `cur` and `tgt` written, `rem` kept (R173). -/
def setEntry (e : Entry) (v : Nat) : Entry :=
  { cur := levelToFixed v, tgt := BitVec.ofNat 8 v, rem := e.rem }

/-- What FADE leaves in an entry: `tgt` and `rem` written, `cur` kept (R174). -/
def fadeTo (e : Entry) (v t : Nat) : Entry :=
  { cur := e.cur, tgt := BitVec.ofNat 8 v, rem := BitVec.ofNat 16 t }

/-- The level of a data bit: 1 is mark, 0 is space (00_scope.md R12). -/
def Level.ofBit (b : Bool) : Level := if b then .mark else .space

/-- The level of bit cell `bit` of a byte in `BITBANG` mode: cell 0 the start bit, cells 1 to 8 the data bits, least
significant first, then the stop bits (41_byte_transmit.md R132 to R134). -/
def cellLevel (b : Byte) (bit : Nat) : Level :=
  if bit = 0 then .space
  else if bit ≤ Config.dataBits then Level.ofBit (b.getLsbD (bit - 1))
  else .mark

/-! ### Codes -/

/-- The 4-bit code of a state (10_state.md R21), the status output `state[3:0]` (60_exceptions.md R208). -/
def FsmState.code (p : FsmState) : BitVec 4 :=
  match p with
  | .idle => 0
  | .init => 1
  | .markBeforeBreak => 2
  | .lineBreak => 3
  | .markAfterBreak => 4
  | .txStartCode => 5
  | .txStartMark => 6
  | .txByte => 7
  | .txMark => 8
  | .update => 9
  | .reserved k => BitVec.ofNat 4 (10 + k.val)

/-- The 2-bit response code (60_exceptions.md R190). -/
def Resp.code (r : Resp) : BitVec 2 :=
  match r with
  | .ok => 0
  | .errChannel => 1
  | .errValue => 2
  | .errIllegal => 3

/-- The source's reply text that a response code maps to (R190, 30_encoding.md R82). -/
def Resp.replyText (r : Resp) : String :=
  match r with
  | .ok => "ok"
  | .errChannel => "error \"Channel is above 512\""
  | .errValue => "error \"Value is above 255\""
  | .errIllegal => "error \"Unknown method\""

/-- The tag of an output action (60_exceptions.md R207). -/
def Action.tag (a : Action) : Nat :=
  match a with
  | .lineInit => 0
  | .line _ => 1
  | .breakReq => 2
  | .send _ => 3
  | .arm _ => 4

/-- The port that carries an output action (R207). -/
def Action.port (a : Action) : String :=
  match a with
  | .lineInit => "pin_init"
  | .line _ => "pin_out"
  | .breakReq => "brk_req"
  | .send _ => "tx_data"
  | .arm _ => "tmr_dur"

/-- The source's driver function that an output action stands for (R207, 00_scope.md R4). -/
def Action.driver (a : Action) : String :=
  match a with
  | .lineInit => "configure-pin"
  | .line _ => "write-pin"
  | .breakReq => "uart-break-request"
  | .send _ => "uart-send-byte"
  | .arm _ => "start-one-shot-timer"

end Sys2Proof.Machine
end

