-- ==== Sys2Proof/Machine/Ops.lean ====
section
/-! DEFINITION. The named operations over the store and the registers: the store's cells (20_memory.md), one named
update per register, `emit` and `Arm` (60_exceptions.md R200, R207), and `raise`, the block's synchronous exception
(R190). The other kind of entry, the event's `Deliver` (R196), stands in Machine/Sequencer.lean over `runAction` of
Machine/Sequencer.lean; there is no return operation, nothing having been saved (R198). -/

namespace Sys2Proof

/-! ### The Channel Store -/

/-- The entry at an index: the listed one, or `Entry.zero` (10_state.md R40). -/
def Memory.read (m : Memory) (i : Nat) : Entry :=
  match m with
  | [] => Entry.zero
  | (k, e) :: rest => if k = i then e else Memory.read rest i

/-- The store without a listed entry at `i`. -/
def Memory.erase (m : Memory) (i : Nat) : Memory :=
  match m with
  | [] => []
  | (k, e) :: rest => if k = i then Memory.erase rest i else (k, e) :: Memory.erase rest i

/-- A cell put in its place by index. -/
def Memory.insert (m : Memory) (i : Nat) (e : Entry) : Memory :=
  match m with
  | [] => [(i, e)]
  | (k, x) :: rest => if i < k then (i, e) :: (k, x) :: rest else (k, x) :: Memory.insert rest i e

/-- `store[i] <- e`, the whole entry in one step (20_memory.md R52). An entry equal to what an unlisted index reads
as is not listed. -/
def Memory.write (m : Memory) (i : Nat) (e : Entry) : Memory :=
  if e = Entry.zero then m.erase i else (m.erase i).insert i e

/-- The indices of a store rise strictly, all are above `lo` or equal to it, and none is above 512; no listed entry
is `Entry.zero`. -/
def Memory.wfFrom (m : Memory) (lo : Nat) : Bool :=
  match m with
  | [] => true
  | (k, e) :: rest =>
    decide (lo ≤ k) && decide (k ≤ channelCount) && decide (e ≠ Entry.zero) && Memory.wfFrom rest (k + 1)

/-- The canonical form of a store: equal stores are equal lists. -/
def Memory.wf (m : Memory) : Bool := m.wfFrom 0

end Sys2Proof

namespace Sys2Proof.Machine

open Sys2Proof

/-! ### One named update per register -/

/-- `state <- p`. -/
def State.setState (s : State) (p : FsmState) : State := { s with state := p }
/-- `slot <- n`. -/
def State.setSlot (s : State) (n : BitVec 10) : State := { s with slot := n }
/-- `bit <- n`. -/
def State.setBit (s : State) (n : BitVec 4) : State := { s with bit := n }
/-- `txbyte <- b`. -/
def State.setTxbyte (s : State) (b : Byte) : State := { s with txbyte := b }
/-- The store replaced. -/
def State.setStore (s : State) (m : Memory) : State := { s with store := m }
/-- The schedule of inputs replaced. -/
def State.setInputs (s : State) (l : List Input) : State := { s with inputs := l }

/-! ### Sequencing of outcomes -/

/-- Go on from a next state; a fault or a refusal ends the step. -/
def andThen (o : Result) (f : State → Result) : Result :=
  match o with
  | .next s => f s
  | .fault r => .fault r
  | .refused r => .refused r

/-! ### MemRead and MemWrite (00_scope.md R9, 20_memory.md R52) -/

/-- `MemRead(i)`: go on with the whole entry. An index above 512 names no entry (R54). -/
def readEntry (i : Nat) (s : State) (k : Entry → Result) : Result :=
  if i ≤ channelCount then k (s.store.read i) else .fault .noSuchEntry

/-- `MemWrite(i, e)`: the whole entry in one step. -/
def writeEntry (i : Nat) (e : Entry) (s : State) : Result :=
  if i ≤ channelCount then .next (s.setStore (s.store.write i e)) else .fault .noSuchEntry

/-! ### Output primitives -/

/-- What an output action does to `line` (60_exceptions.md R207): `none` where it does nothing to it. -/
def Action.drives (a : Action) : Option Level :=
  match a with
  | .lineInit => some .mark
  | .line l => some l
  | .breakReq => some .space
  | .send _ => none
  | .arm _ => none

/-- `emit A`: the trace grows by the action, and the line takes the level it drives (R207). -/
def State.emit (s : State) (a : Action) : State :=
  { s with out := s.out ++ [a], line := a.drives.or s.line }

/-- `Arm(d)`: a pending arming is replaced (60_exceptions.md R200). -/
def State.arm (s : State) (d : Micros) : State :=
  { s with tmrArmed := true, tmrDur := d, out := s.out ++ [.arm d] }

/-! ### The host port's answer -/

/-- The response code of a host operation goes out at `resp[1:0]` (43_host_commands.md R170). -/
def State.respond (s : State) (r : Resp) : State := { s with resps := s.resps ++ [r] }

/-- `raise <Code>`: respond the code, write no state, end the step (60_exceptions.md R190). The machine goes on. -/
def raise (r : Resp) (s : State) : Result := .next (s.respond r)

/-! ### Reset -/

/-- The reset step (70_reset_and_hazards.md R230): every field of the record takes its reset value, the store the
scene `INIT_SCENE`. The configuration and what is still to arrive are not state of the block. -/
def doReset (s : State) : State :=
  { State.reset with cfg := s.cfg, inputs := s.inputs, store := s.cfg.initScene }

end Sys2Proof.Machine
end

