-- ==== Sys2Proof/Machine/Fade.lean ====
section
/-! DEFINITION. The fade pipeline (42_fade_pipeline.md R150 to R153). -/

namespace Sys2Proof.Machine

open Sys2Proof

/-- Division rounded toward zero: `tdiv(a, b) = sign(a) × floor(|a| / b)` (00_scope.md R8). -/
def tdiv (a : Int) (b : Nat) : Int := a.sign * ((a.natAbs / b : Nat) : Int)

/-- `clamp(x, lo, hi)` (00_scope.md R8). -/
def clamp (x lo hi : Int) : Int := if x < lo then lo else if x > hi then hi else x

/-- The step of the division branch: the gap times `delta`, exactly, then divided by `rem` toward zero (R152). -/
def fadeStep (e : Entry) (delta : Millis) : Int :=
  tdiv ((e.target - e.cur.toNat : Int) * delta.toNat) e.rem.toNat

/-- `FadeEntry(e, delta)` (R152): snap to the target when `rem ≤ delta`, else one step toward it. -/
def fadeEntry (e : Entry) (delta : Millis) : Entry :=
  if e.rem.toNat ≤ delta.toNat then
    { cur := BitVec.ofNat 16 e.target, tgt := e.tgt, rem := 0 }
  else
    { cur := BitVec.ofNat 16 (clamp (e.cur.toNat + fadeStep e delta) 0 maxFixed).toNat
      tgt := e.tgt
      rem := BitVec.ofNat 16 (e.rem.toNat - delta.toNat) }

/-- `FadeSweep(delta)`: all 513 entries, the start-code entry included (R150). The entries are independent, and the
entry `(0, 0, 0)` of an unlisted index is left as it is by `FadeEntry`, so the sweep goes over the listed entries;
`sweepLoop` is the loop of R150 letter for letter. -/
def fadeSweep (m : Memory) (delta : Millis) : Memory :=
  match m with
  | [] => []
  | (k, e) :: rest => (fadeSweep rest delta).write k (if k ≤ channelCount then fadeEntry e delta else e)

/-- The loop of R150: `MemWrite(i, FadeEntry(MemRead(i), delta))` for `i` from 0 to `n - 1`, `n = 513` for the whole
store. No step calls it; it is what `fadeSweep` is equal to. -/
def sweepLoop (n : Nat) (m : Memory) (delta : Millis) : Memory :=
  match n with
  | 0 => m
  | i + 1 => (sweepLoop i m delta).write i (fadeEntry ((sweepLoop i m delta).read i) delta)

end Sys2Proof.Machine
end

