-- ==== Sys2Proof/Machine/Flags.lean ====
section
/-! DEFINITION. The flags `lock`, `stop_req`, `tmr_armed` and `uart_busy` (10_state.md R26 to R29): what sets and what
clears each. -/

namespace Sys2Proof.Machine

open Sys2Proof

/-- `lock <- b` (60_exceptions.md R196). -/
def State.setLock (s : State) (b : Bool) : State := { s with lock := b }

/-- `stop_req <- b` (10_state.md R27). -/
def State.setStopReq (s : State) (b : Bool) : State := { s with stopReq := b }

/-- STOP's write of the flag: set when the engine runs, left alone in `Idle` (43_host_commands.md R172). -/
def State.requestStop (s : State) : State := if s.state = .idle then s else s.setStopReq true

/-- `uart_busy <- 1`, in the step that hands a byte to the UART (41_byte_transmit.md R131). -/
def State.setBusy (s : State) : State := { s with uartBusy := true }

/-- The bookkeeping of EV.TIMER before its delivery (40_fsm_sequencer.md R91): an armed timer is disarmed and its
duration counted; a spurious event does nothing here. -/
def State.timerFired (s : State) : State :=
  if s.tmrArmed then { s with tmrArmed := false, vtimeUs := s.vtimeUs + s.tmrDur.toNat } else s

/-- The bookkeeping of EV.BYTE before its delivery (40_fsm_sequencer.md R92): a byte in flight is over and its time
counted; a spurious event does nothing here. -/
def State.byteSent (s : State) : State :=
  if s.uartBusy then { s with uartBusy := false, vtimeUs := s.vtimeUs + s.cfg.byteUs } else s

end Sys2Proof.Machine
end

