-- ==== Sys2Proof/Machine/Transmit.lean ====
section
/-! DEFINITION. The byte transmitter (41_byte_transmit.md R130 to R137). -/

namespace Sys2Proof.Machine

open Sys2Proof

/-- The byte is latched: `txbyte <- MemRead(slot).cur[15:8]`, the only read of the store by the sequencer (R130). -/
def latchByte (s : State) : Result :=
  readEntry s.slot.toNat s fun e => .next (s.setTxbyte e.sentByte)

/-- `UartSend()` (R131): hand the byte to the peripheral; the timer is not armed. -/
def uartSend (s : State) : State := (s.emit (.send s.txbyte)).setBusy

/-- `StartBit()`, `DataBit()` and `StopBit()` (R132 to R134): drive the cell's level and arm one bit period. -/
def driveCell (s : State) : State :=
  (s.emit (.line (cellLevel s.txbyte s.bit.toNat))).arm (BitVec.ofNat 32 Config.bitUs)

/-- The action of `TxStartCode` and of `TxByte` (R130). `bit` above `8 + STOP_BITS` has no rule (log 10). -/
def txAction (s : State) : Result :=
  match s.cfg.txMode with
  | .uart => andThen (latchByte s) fun s' => .next (uartSend s')
  | .bitbang =>
    if s.bit.toNat = 0 then andThen (latchByte s) fun s' => .next (driveCell s')
    else if s.bit.toNat ≤ s.cfg.lastBit then .next (driveCell s)
    else .refused .bitOutOfRange

/-- The state after a byte that is not the frame's last: the inter-byte mark when `MARK_US > 0`, else the next byte
(R135). -/
def afterByte (s : State) : FsmState :=
  if s.cfg.markUs.toNat > 0 then (if s.state = .txStartCode then .txStartMark else .txMark) else .txByte

/-- `ByteDone()` (R135). `slot` above 512 has no rule (log 9). -/
def byteDone (s : State) : Result :=
  if s.slot.toNat = channelCount then .next (s.setState .update)
  else if s.slot.toNat < channelCount then
    .next (((s.setState (afterByte s)).setSlot (s.slot + 1)).setBit 0)
  else .refused .slotOutOfRange

end Sys2Proof.Machine
end

