-- ==== Sys2Proof/Machine/Sequencer.lean ====
section
/-! DEFINITION. The sequencer: the action of every state (40_fsm_sequencer.md R93 to R103), the transitions
(R104 to R113), and the event entry point `Deliver` with its lock (60_exceptions.md R196, R197). -/

namespace Sys2Proof.Machine

open Sys2Proof

/-! ### Actions -/

/-- The action of `Init` (R95). -/
def actInit (s : State) : State := (s.emit .lineInit).arm s.cfg.settleUs

/-- The action of `MarkBeforeBreak` (R96): honour a stop, or start a frame. -/
def actMarkBeforeBreak (s : State) : State :=
  if s.stopReq then (s.setStopReq false).setState .idle
  else (((s.emit (.line .mark)).setSlot 0).setBit 0).arm s.cfg.mbbUs

/-- The action of `Break` (R97). -/
def actBreak (s : State) : State :=
  match s.cfg.txMode with
  | .uart => (s.emit .breakReq).arm s.cfg.breakUs
  | .bitbang => (s.emit (.line .space)).arm s.cfg.breakUs

/-- The action of `MarkAfterBreak` (R98). -/
def actMarkAfterBreak (s : State) : State := (s.emit (.line .mark)).arm s.cfg.mabUs

/-- The action of `TxStartMark` and of `TxMark`, the inter-byte guard time (R100, R102). -/
def actMark (s : State) : State := s.arm s.cfg.markUs

/-- The action of `Update` (R103, R113): the sweep, then `MarkBeforeBreak` and its action in the same step. -/
def actUpdate (s : State) : State :=
  actMarkBeforeBreak ((s.setStore (fadeSweep s.store s.cfg.deltaMs)).setState .markBeforeBreak)

/-- `Action()`: the action of the state that `state` holds (R93). The action of a code 10 to 15 is not defined
(93_implementation_defined.md U2; log 11). -/
def action (s : State) : Result :=
  match s.state with
  | .idle => .next s
  | .init => .next (actInit s)
  | .markBeforeBreak => .next (actMarkBeforeBreak s)
  | .lineBreak => .next (actBreak s)
  | .markAfterBreak => .next (actMarkAfterBreak s)
  | .txStartCode => txAction s
  | .txStartMark => .next (actMark s)
  | .txByte => txAction s
  | .txMark => .next (actMark s)
  | .update => .next (actUpdate s)
  | .reserved _ => .refused .noAction

/-- `lock <- 1; Action(); lock <- 0` (60_exceptions.md R196, 43_host_commands.md R171). -/
def lockedAction (s : State) : Result :=
  andThen (action (s.setLock true)) fun s' => .next (s'.setLock false)

/-! ### Transitions -/

/-- What a byte state answers a TimerExpired: one bit period in `BITBANG` mode, ignored in `UART` mode (R109). -/
def byteStateTimer (c : Config) : Transition :=
  match c.txMode with
  | .uart => .ignore
  | .bitbang => .bitElapsed

/-- What a byte state answers a ByteTransmitted: the byte is complete in `UART` mode, ignored in `BITBANG` mode
(R108). -/
def byteStateByte (c : Config) : Transition :=
  match c.txMode with
  | .uart => .byteDone
  | .bitbang => .ignore

/-- `Trans(state, ev)`: the acceptance table of R112. -/
def transition (c : Config) (p : FsmState) (e : Event) : Transition :=
  match e, p with
  | .timerExpired, .idle => .ignore
  | .timerExpired, .init => .goto .markBeforeBreak
  | .timerExpired, .markBeforeBreak => .goto .lineBreak
  | .timerExpired, .lineBreak => .goto .markAfterBreak
  | .timerExpired, .markAfterBreak => .goto .txStartCode
  | .timerExpired, .txStartCode => byteStateTimer c
  | .timerExpired, .txStartMark => .goto .txByte
  | .timerExpired, .txByte => byteStateTimer c
  | .timerExpired, .txMark => .goto .txByte
  | .timerExpired, .update => .ignore
  | .timerExpired, .reserved _ => .ignore
  | .byteTransmitted, .idle => .ignore
  | .byteTransmitted, .init => .ignore
  | .byteTransmitted, .markBeforeBreak => .ignore
  | .byteTransmitted, .lineBreak => .ignore
  | .byteTransmitted, .markAfterBreak => .ignore
  | .byteTransmitted, .txStartCode => byteStateByte c
  | .byteTransmitted, .txStartMark => .ignore
  | .byteTransmitted, .txByte => byteStateByte c
  | .byteTransmitted, .txMark => .ignore
  | .byteTransmitted, .update => .ignore
  | .byteTransmitted, .reserved _ => .ignore

/-- One bit period has elapsed (R109): the next cell, or the byte is complete after the last stop bit. `bit` above
`8 + STOP_BITS` has no rule (log 10). -/
def bitElapsed (s : State) : Result :=
  if s.bit.toNat < s.cfg.lastBit then .next (s.setBit (s.bit + 1))
  else if s.bit.toNat = s.cfg.lastBit then byteDone s
  else .refused .bitOutOfRange

/-- The register writes of a transition: `state`, `slot`, `bit` (60_exceptions.md R196). -/
def applyTransition (t : Transition) (s : State) : Result :=
  match t with
  | .ignore => .next s
  | .goto p => .next (s.setState p)
  | .byteDone => byteDone s
  | .bitElapsed => bitElapsed s

/-! ### The event entry point -/

/-- The second half of `Deliver` (R196): the action with the lock held, or nothing when the lock is already held (the
suppressed action call, R197; log 12). -/
def runAction (s : State) : Result := if s.lock then .next s else lockedAction s

/-- `Deliver(ev)`, the single event-handling entry point (R196). Entry saves nothing and there is no return
operation (R198). -/
def deliver (e : Event) (s : State) : Result :=
  match transition s.cfg s.state e with
  | .ignore => .next s
  | .goto p => andThen (applyTransition (.goto p) s) runAction
  | .byteDone => andThen (applyTransition .byteDone s) runAction
  | .bitElapsed => andThen (applyTransition .bitElapsed s) runAction

end Sys2Proof.Machine
end

