-- ==== Sys2Proof/Machine/Commands.lean ====
section
/-! DEFINITION. The host commands START, STOP, SET and FADE (43_host_commands.md R171 to R174). -/

namespace Sys2Proof.Machine

open Sys2Proof

/-- START (R171): withdraw a stop; from `Idle`, enter `Init` and run its action. -/
def execStart (s : State) : Result :=
  if s.state = .idle then
    andThen (lockedAction ((s.setStopReq false).setState .init)) fun s' => .next (s'.respond .ok)
  else .next ((s.setStopReq false).respond .ok)

/-- STOP (R172): request a stop unless the engine is in `Idle`. -/
def execStop (s : State) : Result := .next (s.requestStop.respond .ok)

/-- The shape SET and FADE share (R173, R174): the checks of the operands in their order, then one entry read and
written whole, and the answer `OK`. -/
def hostWrite (c v : Nat) (f : Entry → Entry) (s : State) : Result :=
  match checkOperands c v with
  | some r => raise r s
  | none => andThen (readEntry c s fun e => writeEntry c (f e) s) fun s' => .next (s'.respond .ok)

/-- SET c, v (R173): the entry's `cur` and `tgt`, at once; `rem` kept. -/
def execSet (c v : Nat) (s : State) : Result := hostWrite c v (fun e => setEntry e v) s

/-- FADE c, v, t (R174): the entry's `tgt` and `rem`; `cur` kept. -/
def execFade (c v t : Nat) (s : State) : Result := hostWrite c v (fun e => fadeTo e v t) s

end Sys2Proof.Machine
end

