-- ==== Sys2Proof/Machine/Events.lean ====
section
/-! DEFINITION. The line events EV.TIMER and EV.BYTE (40_fsm_sequencer.md R91, R92). They are total: a spurious event
reaches `Deliver` too (92_eei_decisions.md D33). -/

namespace Sys2Proof.Machine

open Sys2Proof

/-- EV.TIMER (R91). -/
def execEvTimer (s : State) : Result := deliver .timerExpired s.timerFired

/-- EV.BYTE (R92). -/
def execEvByte (s : State) : Result := deliver .byteTransmitted s.byteSent

end Sys2Proof.Machine
end

