-- ==== Sys2Proof/Machine/Dispatch.lean ====
section
/-! DEFINITION. The meaning of every operation, one arm a row of spec/opcode_table.json. -/

namespace Sys2Proof.Machine

open Sys2Proof

def exec (i : Instr) (s : State) : Host.Outcome State Fault Refusal :=
  match i with
  | .start => Sys2Proof.Machine.execStart s
  | .stop => Sys2Proof.Machine.execStop s
  | .set c v => Sys2Proof.Machine.execSet c v s
  | .fade c v t => Sys2Proof.Machine.execFade c v t s
  | .evTimer => Sys2Proof.Machine.execEvTimer s
  | .evByte => Sys2Proof.Machine.execEvByte s

end Sys2Proof.Machine
end

