-- ==== Sys2Proof/Machine/HostPort.lean ====
section
/-! DEFINITION. The input ports. Where a step takes its operation from: the input ports of 60_exceptions.md R208, whose coming
arrivals `inputs` lists (log 1), and the host port's own check of a word (30_encoding.md R75, R78). -/

namespace Sys2Proof.Machine

open Sys2Proof

/-- What arrives next, and the state without it. -/
def fetch (s : State) : Option (Input × State) :=
  match s.inputs with
  | [] => none
  | a :: rest => some (a, s.setInputs rest)

/-- The instruction a word at the host port stands for; `none` is `ERR_ILLEGAL` (R75 steps 1 and 2). A line event's
word is refused there: the foreground may not inject events (R78). -/
def hostDecode (w : OpWord) : Option Instr :=
  match decode w with
  | .ok i =>
    match i.context with
    | .foreground => some i
    | .interrupt => none
  | .error _ => none

/-- The step of one arrival: a host word is decoded, checked and performed or refused (43_host_commands.md R170), an
event is its operation (60_exceptions.md R194), `rst` is the reset step (70_reset_and_hazards.md R230). -/
def arrive (a : Input) (s : State) : Host.Outcome State Fault Refusal :=
  match a with
  | .cmd w =>
    match hostDecode w with
    | some i => exec i s
    | none => raise .errIllegal s
  | .event e => exec e.instr s
  | .rst => .next (doReset s)

/-- Where a word of a trace arrives (R78: "a trace, a test vector or a program can list host commands and events in
one sequence with one decoder"): an event word is a pulse on its line, any other word is a word at the host port. -/
def traceInput (w : OpWord) : Input :=
  match decode w with
  | .ok .evTimer => .event .timerExpired
  | .ok .evByte => .event .byteTransmitted
  | .ok .start => .cmd w
  | .ok .stop => .cmd w
  | .ok (.set _ _) => .cmd w
  | .ok (.fade _ _ _) => .cmd w
  | .error _ => .cmd w

/-- A table row's word as a 48-bit operation word: the bits above `nbits` are zero. -/
def tableWord (nbits w : Nat) : OpWord := BitVec.ofNat 48 (w % 2 ^ nbits)

end Sys2Proof.Machine
end

