-- ==== Sys2Proof/Machine/Step.lean ====
section
/-! DEFINITION. One step: what arrives next at the input ports is taken whole (00_scope.md R10). -/

namespace Sys2Proof.Machine

open Sys2Proof

/-- One step. When nothing arrives the block stays as it is (60_exceptions.md R213: "simply the absence of a step";
log 2). -/
def step (s : State) : Host.Outcome State Fault Refusal :=
  match fetch s with
  | none => .next s
  | some (a, s') => arrive a s'

/-- The word of a table row put in front of what arrives, as a trace word: the very next step runs it (log 18). -/
def State.withFetchWord (s : State) (nbits w : Nat) : State :=
  s.setInputs (traceInput (tableWord nbits w) :: s.inputs)

end Sys2Proof.Machine
end

