-- ==== Sys2Proof/Safety.lean ====
section
/-! DEFINITION. What holds of every reachable state (40_fsm_sequencer.md R114, 10_state.md R34), which agent may act
(60_exceptions.md R201, R204), and the event sequence, trace and time of a frame (R81, R115, R246), in the terms the
statements use. -/

namespace Sys2Proof

/-- No listed entry's current level is above `255 << 8` (10_state.md R34 (a)). -/
def Memory.levelsOk (m : Memory) : Bool := m.all fun p => decide (p.2.cur.toNat ≤ maxFixed)

/-- The builder's duty for `INIT_SCENE` (00_scope.md R6: "constraint `cur ≤ 65280`"), and its canonical form. -/
def Config.sceneOk (c : Config) : Bool := c.initScene.wf && c.initScene.levelsOk

end Sys2Proof

namespace Sys2Proof.Machine

open Sys2Proof

/-- The states that wait for the timer in both modes (R114 (a)). -/
def FsmState.waitsForTimer (p : FsmState) : Bool :=
  match p with
  | .idle => false
  | .init => true
  | .markBeforeBreak => true
  | .lineBreak => true
  | .markAfterBreak => true
  | .txStartCode => false
  | .txStartMark => true
  | .txByte => false
  | .txMark => true
  | .update => false
  | .reserved _ => false

/-- The two states that send a byte (R114 (b)). -/
def FsmState.sendsByte (p : FsmState) : Bool := decide (p = .txStartCode) || decide (p = .txByte)

/-- The states a step may end in (R114 (d)). -/
def FsmState.legal (p : FsmState) : Bool := decide (p = .idle) || p.waitsForTimer || p.sendsByte

/-- When the line is low (R114 (f)): in `Break`, or in a start bit or a data bit of value 0 in `BITBANG` mode. -/
def lineLow (s : State) : Bool :=
  decide (s.state = .lineBreak) ||
    (s.state.sendsByte && decide (s.cfg.txMode = .bitbang) &&
      decide (cellLevel s.txbyte s.bit.toNat = .space))

/-- The invariants of every reachable state at the end of every step (R114), with what R22, R23, R29, R34, R100 and
R107 say of the same states. -/
structure Inv (s : State) : Prop where
  /-- R114 (a) -/
  timerStates : s.state.waitsForTimer = true → s.tmrArmed = true ∧ s.uartBusy = false
  /-- R114 (b), `UART` mode -/
  uartByte : s.state.sendsByte = true → s.cfg.txMode = .uart → s.uartBusy = true ∧ s.tmrArmed = false
  /-- R114 (b), `BITBANG` mode -/
  bitbangByte : s.state.sendsByte = true → s.cfg.txMode = .bitbang → s.tmrArmed = true ∧ s.uartBusy = false
  /-- R114 (c) -/
  idleQuiet : s.state = .idle → s.tmrArmed = false ∧ s.uartBusy = false ∧ s.stopReq = false
  /-- R114 (d) -/
  legalState : s.state.legal = true
  /-- R114 (d) -/
  lockFree : s.lock = false
  /-- R114 (e) -/
  slotRange : s.slot.toNat ≤ channelCount
  /-- R114 (e), R107 -/
  slotZero : s.state = .markBeforeBreak ∨ s.state = .lineBreak ∨ s.state = .markAfterBreak ∨ s.state = .txStartCode →
    s.slot.toNat = 0
  /-- R114 (e) -/
  slotOne : s.state = .txStartMark → s.slot.toNat = 1
  /-- R114 (e) -/
  slotByte : s.state = .txByte → 1 ≤ s.slot.toNat
  /-- R114 (e) -/
  slotMark : s.state = .txMark → 2 ≤ s.slot.toNat
  /-- R23, R114 (b) -/
  bitRange : s.bit.toNat ≤ s.cfg.lastBit
  /-- R23: in `UART` mode `bit` "holds 0 always" -/
  bitUart : s.cfg.txMode = .uart → s.bit.toNat = 0
  /-- `bit` is 0 in every state that waits for a phase of the frame (R96, R135) -/
  bitZero : s.state.waitsForTimer = true → s.state ≠ .init → s.bit.toNat = 0
  /-- R100: the mark states are entered only when `MARK_US > 0` -/
  markStates : s.state = .txStartMark ∨ s.state = .txMark → 0 < s.cfg.markUs.toNat
  /-- R114 (f) -/
  lineLevel : s.line = some .space ↔ lineLow s = true
  /-- R114 (f): "after the first START `line` is never unspecified" -/
  lineKnown : s.state ≠ .idle → s.line ≠ none
  /-- the store's canonical form (log 7) -/
  storeCanonical : s.store.wf = true
  /-- R34 (a) -/
  storeLevels : s.store.levelsOk = true
  /-- the premise of R34 (a) -/
  sceneLevels : s.cfg.sceneOk = true

/-! ### Agents -/

/-- The agents that take steps (00_scope.md R11). -/
inductive Agent where
  | host
  | timer
  | uart
  | reset
  deriving DecidableEq, Repr

/-- The agent whose step an arrival is. -/
def Input.agent (a : Input) : Agent :=
  match a with
  | .cmd _ => .host
  | .event .timerExpired => .timer
  | .event .byteTransmitted => .uart
  | .rst => .reset

/-- Whether an agent's step is enabled: the timer's exactly when armed (60_exceptions.md R201), the UART's exactly
when a byte is in flight (R204), the host's and reset's always. -/
def Agent.enabled (a : Agent) (s : State) : Bool :=
  match a with
  | .host => true
  | .timer => s.tmrArmed
  | .uart => s.uartBusy
  | .reset => true

/-! ### One frame: its events, its actions and its time -/

/-- `BYTE` (30_encoding.md R81): the events that carry one byte from its start to its completion. -/
def byteEvents (c : Config) : List Input :=
  match c.txMode with
  | .uart => [.event .byteTransmitted]
  | .bitbang => List.replicate (c.lastBit + 1) (.event .timerExpired)

/-- `GAP` (R81): the inter-byte mark. -/
def gapEvents (c : Config) : List Input :=
  if c.markUs.toNat > 0 then [.event .timerExpired] else []

/-- The events of the channel bytes still to come after `n` more of them: `n` times (`GAP`, `BYTE`). -/
def channelEvents (c : Config) (n : Nat) : List Input :=
  match n with
  | 0 => []
  | k + 1 => gapEvents c ++ byteEvents c ++ channelEvents c k

/-- The events of one frame from `MarkBeforeBreak` (R115): "`3 × EV.TIMER`, then `BYTE`, then 512 times
(`GAP`, `BYTE`)". -/
def frameEvents (c : Config) : List Input :=
  List.replicate 3 (.event .timerExpired) ++ byteEvents c ++ channelEvents c channelCount

/-- The actions of bit cells `bit`, `bit + 1`, … of a byte in `BITBANG` mode, `n` of them (41_byte_transmit.md R136). -/
def cellActions (b : Byte) (bit n : Nat) : List Action :=
  match n with
  | 0 => []
  | k + 1 =>
    .line (cellLevel b bit) :: .arm (BitVec.ofNat 32 Config.bitUs) :: cellActions b (bit + 1) k

/-- The actions that send one byte (R131, R136). -/
def byteActions (c : Config) (b : Byte) : List Action :=
  match c.txMode with
  | .uart => [.send b]
  | .bitbang => cellActions b 0 (c.lastBit + 1)

/-- The actions of the inter-byte mark (R100, R102). -/
def gapActions (c : Config) : List Action := if c.markUs.toNat > 0 then [.arm c.markUs] else []

/-- The actions of the channel bytes of slots `slot`, `slot + 1`, …, `n` of them. -/
def channelActions (c : Config) (m : Memory) (slot n : Nat) : List Action :=
  match n with
  | 0 => []
  | k + 1 => gapActions c ++ byteActions c (m.read slot).sentByte ++ channelActions c m (slot + 1) k

/-- The actions of the break of a frame (R97, R98). -/
def breakActions (c : Config) : List Action :=
  (match c.txMode with
    | .uart => [.breakReq]
    | .bitbang => [.line .space]) ++ [.arm c.breakUs, .line .mark, .arm c.mabUs]

/-- The actions from `MarkBeforeBreak` to the next `MarkBeforeBreak` for a store that does not change in between. -/
def frameActions (c : Config) (m : Memory) : List Action :=
  breakActions c ++ byteActions c (m.read 0).sentByte ++ channelActions c m 1 channelCount ++
    [.line .mark, .arm c.mbbUs]

/-- `FRAME_US` (70_reset_and_hazards.md R246). -/
def frameUs (c : Config) : Nat :=
  c.mbbUs.toNat + c.breakUs.toNat + c.mabUs.toNat + nSlot * c.byteUs +
    (if c.markUs.toNat > 0 then channelCount * c.markUs.toNat else 0)

/-! ### What does not depend on durations (70_reset_and_hazards.md R249) -/

/-- An action without its duration. -/
def Action.shape (a : Action) : Action :=
  match a with
  | .lineInit => .lineInit
  | .line l => .line l
  | .breakReq => .breakReq
  | .send b => .send b
  | .arm _ => .arm 0

/-- Two configurations that differ only in durations, with `MARK_US` zero in both or in neither (R249). -/
def sameButDurations (c d : Config) : Prop :=
  c.txMode = d.txMode ∧ c.stopBits = d.stopBits ∧ c.deltaMs = d.deltaMs ∧ c.initScene = d.initScene ∧
    (c.markUs = 0 ↔ d.markUs = 0)

/-- Two states that agree but for durations: the configurations', the timer's, the trace's and the ghost time. -/
def sameSequence (s t : State) : Prop :=
  sameButDurations s.cfg t.cfg ∧ s.state = t.state ∧ s.slot = t.slot ∧ s.bit = t.bit ∧ s.txbyte = t.txbyte ∧
    s.lock = t.lock ∧ s.stopReq = t.stopReq ∧ s.tmrArmed = t.tmrArmed ∧ s.uartBusy = t.uartBusy ∧
    s.line = t.line ∧ s.store = t.store ∧ s.resps = t.resps ∧ s.inputs = t.inputs ∧
    s.out.map Action.shape = t.out.map Action.shape

/-- A run goes on: the step answers a next state. -/
def goesOn (s : State) : Prop := ∃ s', step s = .next s'

end Sys2Proof.Machine
end

