-- ==== Sys2Proof/Certificates/Slice0/Obligations.lean ====
section
/-! DEFINITION. The statements for the provers, from the numbered rules of spec/. Every statement holds for every
configuration, every schedule of arrivals and every state that meets its hypotheses. -/

open Sys2Proof Sys2Proof.Machine

namespace Sys2Proof.Machine

/-- The ghost time after EV.TIMER (40_fsm_sequencer.md R91): the armed duration is counted. -/
def timeAfterTimer (s : State) : Nat := s.vtimeUs + (if s.tmrArmed = true then s.tmrDur.toNat else 0)

/-- The ghost time after EV.BYTE (R92): the byte in flight is counted. -/
def timeAfterByte (s : State) : Nat := s.vtimeUs + (if s.uartBusy = true then s.cfg.byteUs else 0)

/-- A host word answered with a code and no other effect (60_exceptions.md R190). -/
def answered (s : State) (rest : List Input) (r : Resp) : Result :=
  .next { s with inputs := rest, resps := s.resps ++ [r] }

/-- The byte of a slot, `cur[15:8]`, by division (41_byte_transmit.md R137). -/
def slotByte (s : State) (i : Nat) : Byte := BitVec.ofNat 8 ((s.store.read i).cur.toNat / 256)

/-- A store after one sweep: every one of the 513 entries faded once, every other index as before (42_fade_pipeline.md
R150). -/
def sweptFrom (m : Memory) (d : Millis) (m' : Memory) : Prop :=
  ∀ j, m'.read j = if j ≤ 512 then fadeEntry (m.read j) d else m.read j

/-- `n` sweeps of one entry. -/
def sweeps (d : Millis) (n : Nat) (e : Entry) : Entry := (fun x => fadeEntry x d)^[n] e

end Sys2Proof.Machine

/-! ### Encoding -/

/-- R74 and 95_test_vectors.md E1 to E13: words written out from the encoding table stand for their operations. -/
def Obligations.TableWordsDecode : Prop :=
  decode 0x100000000000 = .ok .start ∧ decode 0x200000000000 = .ok .stop ∧
    decode 0x320000FF0000 = .ok (.set 512 255) ∧ decode 0x4200010003E8 = .ok (.fade 512 256 1000) ∧
    decode 0x800000000000 = .ok .evTimer ∧ decode 0x900000000000 = .ok .evByte ∧
    decode 0x000000000000 = .error .illegalOp ∧ decode 0xF00000000000 = .error .illegalOp ∧
    decode 0x100000000001 = .error .unusedFieldNonZero ∧ decode 0x300100FF0001 = .error .unusedFieldNonZero

/-- R83, the worked encodings and the two refusals, in every state. -/
def Obligations.WorkedEncodingsAndRefusals : Prop :=
  encode (.set 10 200) = 0x300A00C80000 ∧ opField 0x300A00C80000 = 3 ∧ chField 0x300A00C80000 = 0x00A ∧
    valField 0x300A00C80000 = 0x00C8 ∧ msField 0x300A00C80000 = 0 ∧
    encode (.fade 1 200 1000) = 0x400100C803E8 ∧ opField 0x400100C803E8 = 4 ∧ chField 0x400100C803E8 = 0x001 ∧
    valField 0x400100C803E8 = 0x00C8 ∧ msField 0x400100C803E8 = 0x03E8 ∧
    encode (.set 513 0) = 0x320100000000 ∧ encode (.set 1 256) = 0x300101000000 ∧
    ∀ (s : State) (rest : List Input),
      (s.inputs = .cmd 0x320100000000 :: rest → step s = answered s rest .errChannel) ∧
      (s.inputs = .cmd 0x300101000000 :: rest → step s = answered s rest .errValue)

/-- R71, R72, R74: for every operand that fits its field, decoding the word gives the operation back. -/
def Obligations.DecodeOfEncodeIsIdentity : Prop := ∀ i : Instr, WellFormed i → decode (encode i) = .ok i

/-- R72, R74: a word that decodes is the word of what it decodes to, so each operation has one word. -/
def Obligations.EncodeOfDecodeIsIdentity : Prop :=
  ∀ (w : OpWord) (i : Instr), decode w = .ok i → WellFormed i ∧ encode i = w

/-- spec/opcode_table.json: a word is of a row (match and mask) exactly when it decodes to an operation of the row's
mnemonic. No word is of two rows, and a word of no row is refused. -/
def Obligations.DecoderAgreesWithOpcodeTable : Prop :=
  ∀ (w : OpWord) (r : OpcodeRow), r ∈ opcodeTable →
    (r.covers w = true ↔ ∃ i, decode w = .ok i ∧ i.mnemonic = r.mnemonic)

/-- R21 and R190: the state codes and the response codes, each code once. -/
def Obligations.CodesAreThoseOfTheTables : Prop :=
  FsmState.code .idle = 0 ∧ FsmState.code .init = 1 ∧ FsmState.code .markBeforeBreak = 2 ∧
    FsmState.code .lineBreak = 3 ∧ FsmState.code .markAfterBreak = 4 ∧ FsmState.code .txStartCode = 5 ∧
    FsmState.code .txStartMark = 6 ∧ FsmState.code .txByte = 7 ∧ FsmState.code .txMark = 8 ∧
    FsmState.code .update = 9 ∧ (∀ p q : FsmState, p.code = q.code → p = q) ∧
    Resp.code .ok = 0 ∧ Resp.code .errChannel = 1 ∧ Resp.code .errValue = 2 ∧ Resp.code .errIllegal = 3

/-! ### The host port and the step -/

/-- R10, R170, R194: a step runs the decoded operation: a host word's, an event's, and a table word's placed by
`withFetchWord`. Taking the arrival off the schedule is the model's own (log 1). -/
def Obligations.StepRunsTheDecodedInstruction : Prop :=
  ∀ s : State,
    (∀ (w : OpWord) (i : Instr) (rest : List Input), s.inputs = .cmd w :: rest → decode w = .ok i →
      i.context = .foreground → step s = exec i { s with inputs := rest }) ∧
    (∀ rest : List Input, s.inputs = .event .timerExpired :: rest →
      step s = exec .evTimer { s with inputs := rest }) ∧
    (∀ rest : List Input, s.inputs = .event .byteTransmitted :: rest →
      step s = exec .evByte { s with inputs := rest }) ∧
    (∀ i : Instr, WellFormed i → step (s.withFetchWord 48 (encode i).toNat) = exec i s)

/-- DESIGN CHOICE (log 2), from R213's "simply the absence of a step": when nothing arrives the state stays. -/
def Obligations.NothingArrivesNothingChanges : Prop := ∀ s : State, s.inputs = [] → step s = .next s

/-- R75: the checks of a host word in their order, in every state; a word that passes them is performed and answered
`OK`. -/
def Obligations.HostWordCheckingOrder : Prop :=
  ∀ (s : State) (w : OpWord) (rest : List Input), s.inputs = .cmd w :: rest →
    let op := (w.extractLsb' 44 4).toNat
    let ch := (w.extractLsb' 32 12).toNat
    let val := (w.extractLsb' 16 16).toNat
    let ms := (w.extractLsb' 0 16).toNat
    let wrongFormat := ((op = 1 ∨ op = 2) ∧ ¬ (ch = 0 ∧ val = 0 ∧ ms = 0)) ∨ (op = 3 ∧ ms ≠ 0)
    let s' : State := { s with inputs := rest }
    if ¬ (op = 1 ∨ op = 2 ∨ op = 3 ∨ op = 4) then step s = answered s rest .errIllegal
    else if wrongFormat then step s = answered s rest .errIllegal
    else if (op = 3 ∨ op = 4) ∧ ch > 512 then step s = answered s rest .errChannel
    else if (op = 3 ∨ op = 4) ∧ val > 255 then step s = answered s rest .errValue
    else ∃ t, step s = .next t ∧ t.resps = s.resps ++ [.ok] ∧
      (op = 1 → exec .start s' = .next t) ∧ (op = 2 → exec .stop s' = .next t) ∧
      (op = 3 → exec (.set ch val) s' = .next t) ∧ (op = 4 → exec (.fade ch val ms) s' = .next t)

/-- R170: every host word is answered with exactly one code, and a refused one changes nothing else. -/
def Obligations.OneAnswerForEveryHostWord : Prop :=
  ∀ (s : State) (w : OpWord) (rest : List Input), s.inputs = .cmd w :: rest →
    ∃ t r, step s = .next t ∧ t.inputs = rest ∧ t.resps = s.resps ++ [r] ∧
      (r ≠ .ok → t = { s with inputs := rest, resps := s.resps ++ [r] })

/-- R78: a word with bit 47 set is refused at the host port in every state; in a trace the two event words are the
two pulses; an event has no response code. -/
def Obligations.HostCannotInjectEvents : Prop :=
  (∀ (s : State) (w : OpWord) (rest : List Input), s.inputs = .cmd w :: rest → w[47] = true →
    step s = answered s rest .errIllegal) ∧
  traceInput 0x800000000000 = .event .timerExpired ∧ traceInput 0x900000000000 = .event .byteTransmitted ∧
  (∀ s t : State, exec .evTimer s = .next t ∨ exec .evByte s = .next t → t.resps = s.resps)

/-! ### Reset -/

/-- R40: the state after reset. The store's content is the default scene, which `State.reset` takes (log 4). -/
def Obligations.ResetStateIsQuiet : Prop :=
  State.reset.state = .idle ∧ State.reset.slot = 0 ∧ State.reset.bit = 0 ∧ State.reset.txbyte = 0 ∧
    State.reset.lock = false ∧ State.reset.stopReq = false ∧ State.reset.tmrArmed = false ∧
    State.reset.tmrDur = 0 ∧ State.reset.uartBusy = false ∧ State.reset.line = none ∧ State.reset.out = [] ∧
    State.reset.vtimeUs = 0 ∧ (∀ i, State.reset.store.read i = { cur := 0, tgt := 0, rem := 0 }) ∧
    (State.reset.store.read 0).sentByte = 0x00

/-- R230: the reset step, in any state. The last two fields are the model's own (log 8, log 16). -/
def Obligations.ResetStepWritesEveryField : Prop :=
  ∀ (s : State) (rest : List Input), s.inputs = .rst :: rest →
    step s = .next
      { cfg := s.cfg, state := .idle, slot := 0, bit := 0, txbyte := 0, lock := false, stopReq := false,
        tmrArmed := false, tmrDur := 0, uartBusy := false, line := none, out := [], vtimeUs := 0,
        store := s.cfg.initScene, resps := [], inputs := rest }

/-! ### Host commands -/

/-- R171: START, its word, and its effect in every state with everything it leaves alone. -/
def Obligations.StartEffect : Prop :=
  encode .start = 0x100000000000 ∧
  ∀ s : State,
    (s.state = .idle → exec .start s = .next
      { s with state := .init, stopReq := false, lock := false, line := some .mark, tmrArmed := true,
               tmrDur := s.cfg.settleUs, out := s.out ++ [.lineInit, .arm s.cfg.settleUs],
               resps := s.resps ++ [.ok] }) ∧
    (s.state ≠ .idle → exec .start s = .next { s with stopReq := false, resps := s.resps ++ [.ok] })

/-- R172: STOP in every state, with everything it leaves alone. -/
def Obligations.StopEffect : Prop :=
  ∀ s : State,
    (s.state = .idle → exec .stop s = .next { s with resps := s.resps ++ [.ok] }) ∧
    (s.state ≠ .idle → exec .stop s = .next { s with stopReq := true, resps := s.resps ++ [.ok] })

/-- R173: SET with legal operands, in every state: the entry's new fields, and every other entry and field as
before. -/
def Obligations.SetEffect : Prop :=
  ∀ (c v : Nat) (s : State), c ≤ 512 → v ≤ 255 →
    ∃ m, exec (.set c v) s = .next { s with store := m, resps := s.resps ++ [.ok] } ∧
      (m.read c).cur.toNat = v * 256 ∧ (m.read c).tgt.toNat = v ∧ (m.read c).rem = (s.store.read c).rem ∧
      ∀ j, j ≠ c → m.read j = s.store.read j

/-- R174: FADE with legal operands, in every state. -/
def Obligations.FadeEffect : Prop :=
  ∀ (c v t : Nat) (s : State), c ≤ 512 → v ≤ 255 → t < 2 ^ 16 →
    ∃ m, exec (.fade c v t) s = .next { s with store := m, resps := s.resps ++ [.ok] } ∧
      (m.read c).cur = (s.store.read c).cur ∧ (m.read c).tgt.toNat = v ∧ (m.read c).rem.toNat = t ∧
      ∀ j, j ≠ c → m.read j = s.store.read j

/-- R192: the channel is checked before the level, and the refused operation changes nothing but the answer. -/
def Obligations.OutOfRangeOperandsAreRefused : Prop :=
  ∀ (c v t : Nat) (s : State),
    (c > 512 → exec (.set c v) s = .next { s with resps := s.resps ++ [.errChannel] } ∧
      exec (.fade c v t) s = .next { s with resps := s.resps ++ [.errChannel] }) ∧
    (c ≤ 512 → v > 255 → exec (.set c v) s = .next { s with resps := s.resps ++ [.errValue] } ∧
      exec (.fade c v t) s = .next { s with resps := s.resps ++ [.errValue] })

/-- R53, R175: issuing SET twice leaves the store that issuing it once leaves, for a store in canonical form. -/
def Obligations.SetIsIdempotent : Prop :=
  ∀ (c v : Nat) (s t u : State), s.store.wf = true → exec (.set c v) s = .next t → exec (.set c v) t = .next u →
    u.store = t.store

/-- R41, R209: what a host command leaves alone, whatever its operands. -/
def Obligations.HostCommandFrame : Prop :=
  ∀ (i : Instr) (s t : State), i.context = .foreground → exec i s = .next t →
    t.cfg = s.cfg ∧ t.slot = s.slot ∧ t.bit = s.bit ∧ t.txbyte = s.txbyte ∧ t.uartBusy = s.uartBusy ∧
    t.vtimeUs = s.vtimeUs ∧ t.inputs = s.inputs ∧
    (i ≠ .start ∨ s.state ≠ .idle → t.state = s.state ∧ t.lock = s.lock ∧ t.tmrArmed = s.tmrArmed ∧
      t.tmrDur = s.tmrDur ∧ t.line = s.line ∧ t.out = s.out) ∧
    (i ≠ .start → i ≠ .stop → t.stopReq = s.stopReq) ∧
    (∀ j, (∀ v, i ≠ .set j v) → (∀ v d, i ≠ .fade j v d) → t.store.read j = s.store.read j)

/-! ### Events -/

/-- R104 with R96: the end of the settle delay starts a frame, or honours a stop requested during `Init`. -/
def Obligations.SettleDelayElapses : Prop :=
  ∀ s : State, s.lock = false → s.state = .init →
    (s.stopReq = false → exec .evTimer s = .next
      { s with state := .markBeforeBreak, slot := 0, bit := 0, line := some .mark, tmrArmed := true,
               tmrDur := s.cfg.mbbUs, out := s.out ++ [.line .mark, .arm s.cfg.mbbUs],
               vtimeUs := timeAfterTimer s }) ∧
    (s.stopReq = true → exec .evTimer s = .next
      { s with state := .idle, stopReq := false, tmrArmed := false, vtimeUs := timeAfterTimer s })

/-- R105 with R97: the break begins, by a break request or by a pin write. -/
def Obligations.BreakBegins : Prop :=
  ∀ s : State, s.lock = false → s.state = .markBeforeBreak →
    exec .evTimer s = .next
      { s with state := .lineBreak, line := some .space, tmrArmed := true, tmrDur := s.cfg.breakUs,
               out := s.out ++ [if s.cfg.txMode = .uart then .breakReq else .line .space, .arm s.cfg.breakUs],
               vtimeUs := timeAfterTimer s }

/-- R106 with R98: the break ends in the mark after break. -/
def Obligations.BreakEnds : Prop :=
  ∀ s : State, s.lock = false → s.state = .lineBreak →
    exec .evTimer s = .next
      { s with state := .markAfterBreak, line := some .mark, tmrArmed := true, tmrDur := s.cfg.mabUs,
               out := s.out ++ [.line .mark, .arm s.cfg.mabUs], vtimeUs := timeAfterTimer s }

/-- R107, R110, R111 with R130 to R132: a mark elapses and a byte starts, in both modes; the byte is latched from
the entry `slot` names. -/
def Obligations.MarkElapsesAndByteStarts : Prop :=
  ∀ (s : State) (p : FsmState), s.lock = false → s.slot.toNat ≤ 512 →
    (s.state = .markAfterBreak ∧ p = .txStartCode) ∨
      ((s.state = .txStartMark ∨ s.state = .txMark) ∧ p = .txByte) →
    (s.cfg.txMode = .uart → exec .evTimer s = .next
      { s with state := p, txbyte := slotByte s s.slot.toNat, uartBusy := true, tmrArmed := false,
               out := s.out ++ [.send (slotByte s s.slot.toNat)], vtimeUs := timeAfterTimer s }) ∧
    (s.cfg.txMode = .bitbang → s.bit.toNat = 0 → exec .evTimer s = .next
      { s with state := p, txbyte := slotByte s s.slot.toNat, line := some .space, tmrArmed := true, tmrDur := 4,
               out := s.out ++ [.line .space, .arm 4], vtimeUs := timeAfterTimer s })

/-- R109 (first branch) with R133 and R134: the next bit cell of a byte in `BITBANG` mode. -/
def Obligations.NextBitIsDriven : Prop :=
  ∀ s : State, s.lock = false → s.cfg.txMode = .bitbang → s.state = .txStartCode ∨ s.state = .txByte →
    s.bit.toNat < 8 + s.cfg.stopCount →
    let l := if s.bit.toNat + 1 ≤ 8 then Level.ofBit (s.txbyte.getLsbD s.bit.toNat) else Level.mark
    exec .evTimer s = .next
      { s with bit := s.bit + 1, line := some l, tmrArmed := true, tmrDur := 4,
               out := s.out ++ [.line l, .arm 4], vtimeUs := timeAfterTimer s }

/-- R108 with R135: a byte that is not the frame's last is complete in `UART` mode. -/
def Obligations.UartByteCompletes : Prop :=
  ∀ s : State, s.lock = false → s.cfg.txMode = .uart → s.state = .txStartCode ∨ s.state = .txByte →
    s.slot.toNat < 512 →
    (0 < s.cfg.markUs.toNat → exec .evByte s = .next
      { s with state := if s.state = .txStartCode then .txStartMark else .txMark, slot := s.slot + 1, bit := 0,
               uartBusy := false, tmrArmed := true, tmrDur := s.cfg.markUs, out := s.out ++ [.arm s.cfg.markUs],
               vtimeUs := timeAfterByte s }) ∧
    (s.cfg.markUs.toNat = 0 → exec .evByte s = .next
      { s with state := .txByte, slot := s.slot + 1, bit := 0, txbyte := slotByte s (s.slot.toNat + 1),
               uartBusy := true, out := s.out ++ [.send (slotByte s (s.slot.toNat + 1))],
               vtimeUs := timeAfterByte s })

/-- R109 (second branch) with R135: the last stop bit of a byte that is not the frame's last elapses. -/
def Obligations.BitbangByteCompletes : Prop :=
  ∀ s : State, s.lock = false → s.cfg.txMode = .bitbang → s.state = .txStartCode ∨ s.state = .txByte →
    s.bit.toNat = 8 + s.cfg.stopCount → s.slot.toNat < 512 →
    (0 < s.cfg.markUs.toNat → exec .evTimer s = .next
      { s with state := if s.state = .txStartCode then .txStartMark else .txMark, slot := s.slot + 1, bit := 0,
               tmrArmed := true, tmrDur := s.cfg.markUs, out := s.out ++ [.arm s.cfg.markUs],
               vtimeUs := timeAfterTimer s }) ∧
    (s.cfg.markUs.toNat = 0 → exec .evTimer s = .next
      { s with state := .txByte, slot := s.slot + 1, bit := 0, txbyte := slotByte s (s.slot.toNat + 1),
               line := some .space, tmrArmed := true, tmrDur := 4, out := s.out ++ [.line .space, .arm 4],
               vtimeUs := timeAfterTimer s })

/-- R103, R113 with R96 and R135: the completion of slot 512 sweeps every entry once and, in the same step, starts the
next frame or honours a stop. -/
def Obligations.LastByteSweepsAndLoops : Prop :=
  ∀ (s : State) (i : Instr), s.lock = false → s.state = .txStartCode ∨ s.state = .txByte → s.slot.toNat = 512 →
    (s.cfg.txMode = .uart ∧ i = .evByte) ∨
      (s.cfg.txMode = .bitbang ∧ i = .evTimer ∧ s.bit.toNat = 8 + s.cfg.stopCount) →
    ∃ m, sweptFrom s.store s.cfg.deltaMs m ∧
      (s.stopReq = false → exec i s = .next
        { s with store := m, state := .markBeforeBreak, slot := 0, bit := 0, line := some .mark,
                 uartBusy := if i = .evByte then false else s.uartBusy, tmrArmed := true, tmrDur := s.cfg.mbbUs,
                 out := s.out ++ [.line .mark, .arm s.cfg.mbbUs],
                 vtimeUs := if i = .evByte then timeAfterByte s else timeAfterTimer s }) ∧
      (s.stopReq = true → exec i s = .next
        { s with store := m, state := .idle, stopReq := false,
                 uartBusy := if i = .evByte then false else s.uartBusy,
                 tmrArmed := if i = .evByte then s.tmrArmed else false,
                 vtimeUs := if i = .evByte then timeAfterByte s else timeAfterTimer s })

/-- R112: an event that a state does not accept changes nothing but the flag and the time of its own source. -/
def Obligations.UnexpectedEventsAreIgnored : Prop :=
  ∀ s : State,
    (s.state = .idle ∨ s.state = .update ∨ (∃ k, s.state = .reserved k) ∨
        ((s.state = .txStartCode ∨ s.state = .txByte) ∧ s.cfg.txMode = .uart) →
      exec .evTimer s = .next { s with tmrArmed := false, vtimeUs := timeAfterTimer s }) ∧
    (¬ (s.state = .txStartCode ∨ s.state = .txByte) ∨ s.cfg.txMode = .bitbang →
      exec .evByte s = .next { s with uartBusy := false, vtimeUs := timeAfterByte s })

/-- The model's choice (log 9, log 10) where 93_implementation_defined.md U2 describes no behaviour: an event at a
position outside the ranges of R114 (b) and (e) stops by name. No run reaches one (`NoStepStopsTheMachine`). -/
def Obligations.PositionsOutsideTheRangesStop : Prop :=
  ∀ s : State, s.lock = false →
    (s.slot.toNat > 512 → s.state = .markAfterBreak ∨ s.state = .txStartMark ∨ s.state = .txMark →
      s.cfg.txMode = .uart ∨ s.bit.toNat = 0 → exec .evTimer s = .fault .noSuchEntry) ∧
    (s.slot.toNat > 512 → s.state = .txStartCode ∨ s.state = .txByte → s.cfg.txMode = .uart →
      exec .evByte s = .refused .slotOutOfRange) ∧
    (s.state = .txStartCode ∨ s.state = .txByte → s.cfg.txMode = .bitbang →
      8 + s.cfg.stopCount < s.bit.toNat → exec .evTimer s = .refused .bitOutOfRange)

/-- R91, R92: in every state that meets the invariants a spurious event changes nothing at all, and in `BITBANG` mode
EV.BYTE never does. -/
def Obligations.SpuriousEventsChangeNothing : Prop :=
  ∀ s : State, Inv s →
    (s.tmrArmed = false → exec .evTimer s = .next s) ∧ (s.uartBusy = false → exec .evByte s = .next s) ∧
    (s.cfg.txMode = .bitbang → exec .evByte s = .next s)

/-- R196, R197: with the lock already held a delivery keeps the transition's writes of `state`, `slot` and `bit` and
runs no action. -/
def Obligations.HeldLockSuppressesTheAction : Prop :=
  ∀ (s t : State), s.lock = true → exec .evTimer s = .next t ∨ exec .evByte s = .next t →
    t.out = s.out ∧ t.line = s.line ∧ t.store = s.store ∧ t.txbyte = s.txbyte ∧ t.stopReq = s.stopReq ∧
    t.tmrDur = s.tmrDur ∧ t.lock = true ∧
    (t.tmrArmed = true → s.tmrArmed = true) ∧ (t.uartBusy = true → s.uartBusy = true) ∧
    (s.state = .lineBreak → exec .evTimer s = .next t → t.state = .markAfterBreak)

/-- R41 and the frame of the two events: what EV.TIMER and EV.BYTE leave alone. -/
def Obligations.EventFrame : Prop :=
  ∀ (e : Event) (s t : State), exec e.instr s = .next t →
    t.cfg = s.cfg ∧ t.resps = s.resps ∧ t.inputs = s.inputs ∧ (s.lock = false → t.lock = false) ∧
    (t.stopReq = s.stopReq ∨ (s.stopReq = true ∧ t.stopReq = false ∧ t.state = .idle)) ∧
    (∀ j, (t.store.read j).tgt = (s.store.read j).tgt) ∧
    (¬ (s.slot.toNat = 512 ∧ (s.state = .txStartCode ∨ s.state = .txByte)) →
      ∀ j, t.store.read j = s.store.read j)

/-- R25, R130: the latched byte changes only in the step that starts a byte, and is then the byte of the entry `slot`
names. -/
def Obligations.LatchedByteIsKeptUntilTheNextByte : Prop :=
  ∀ (s t : State) (a : Input) (rest : List Input), s.inputs = a :: rest → a ≠ .rst → step s = .next t →
    t.txbyte = s.txbyte ∨
      ((t.state = .txStartCode ∨ t.state = .txByte) ∧ t.txbyte = slotByte s t.slot.toNat ∧
        t.store = s.store ∧ (t.cfg.txMode = .bitbang → t.bit.toNat = 0) ∧
        (t.cfg.txMode = .uart → t.uartBusy = true ∧ t.out = s.out ++ [.send t.txbyte]))

/-! ### Whole-machine rules -/

/-- R6, R35: no step writes the configuration. -/
def Obligations.ConfigurationNeverChanges : Prop := ∀ s t : State, step s = .next t → t.cfg = s.cfg

/-- R50: an entry changes only by a SET or FADE that names it and by the sweep of the event that completes slot 512. -/
def Obligations.OnlySetFadeAndSweepWriteTheStore : Prop :=
  ∀ (i : Instr) (s t : State) (j : Nat), exec i s = .next t → t.store.read j ≠ s.store.read j →
    j ≤ 512 ∧ ((∃ v, i = .set j v) ∨ (∃ v d, i = .fade j v d) ∨
      (i.context = .interrupt ∧ s.slot.toNat = 512 ∧ (s.state = .txStartCode ∨ s.state = .txByte) ∧
        t.store.read j = fadeEntry (s.store.read j) s.cfg.deltaMs))

/-- R55: the start code stays 0x00 while no host write names entry 0, for a scene whose entry 0 is zero. -/
def Obligations.StartCodeStaysZeroUnlessWritten : Prop :=
  ∀ (s t : State) (a : Input) (rest : List Input), s.inputs = a :: rest → step s = .next t →
    s.store.read 0 = Entry.zero → s.cfg.initScene.read 0 = Entry.zero →
    (∀ v, a ≠ .cmd (encode (.set 0 v))) → (∀ v d, a ≠ .cmd (encode (.fade 0 v d))) →
    t.store.read 0 = Entry.zero ∧ slotByte t 0 = 0x00

/-- R31: the output trace only grows, but for reset. -/
def Obligations.OutputTraceOnlyGrows : Prop :=
  ∀ (s t : State) (a : Input) (rest : List Input), s.inputs = a :: rest → a ≠ .rst → step s = .next t →
    s.out <+: t.out

/-- R116: a running engine with no stop requested stays running through every arrival but STOP and reset. -/
def Obligations.EngineNeverStopsOnItsOwn : Prop :=
  ∀ (s t : State) (a : Input) (rest : List Input), s.inputs = a :: rest → a ≠ .rst →
    a ≠ .cmd (encode .stop) → s.state ≠ .idle → s.stopReq = false → step s = .next t →
    t.state ≠ .idle ∧ t.stopReq = false

/-- R112 and 93_implementation_defined.md U2: a machine put by hand into `Update` or a code 10 to 15 stays there until
reset. -/
def Obligations.UnreachableStatesStayPut : Prop :=
  ∀ (s t : State) (a : Input) (rest : List Input), s.inputs = a :: rest → a ≠ .rst →
    (s.state = .update ∨ ∃ k, s.state = .reserved k) → step s = .next t →
    t.state = s.state ∧ t.out = s.out ∧ t.line = s.line

/-- R249: two states that differ only in durations stay so under every arrival, and stop for the same reason or not
at all. -/
def Obligations.DurationsDoNotSteerTheMachine : Prop :=
  ∀ s t : State, sameSequence s t →
    (∀ s', step s = .next s' → ∃ t', step t = .next t' ∧ sameSequence s' t') ∧
    (∀ r, step s = .fault r → step t = .fault r) ∧ (∀ r, step s = .refused r → step t = .refused r)

/-! ### Invariants -/

/-- R114 at reset. -/
def Obligations.InvariantsHoldAtReset : Prop := Inv State.reset

/-- R114: every step keeps the invariants. -/
def Obligations.StepKeepsTheInvariants : Prop := ∀ s t : State, Inv s → step s = .next t → Inv t

/-- R193: with the invariants no step faults or refuses, whatever arrives. -/
def Obligations.NoStepStopsTheMachine : Prop := ∀ s : State, Inv s → goesOn s

/-- R114 (g), R250: exactly one event source is outstanding when the engine runs, none exactly when it is in
`Idle`. -/
def Obligations.ExactlyOneEventOutstanding : Prop :=
  ∀ s : State, Inv s →
    (s.state ≠ .idle → (Agent.timer.enabled s != Agent.uart.enabled s) = true) ∧
    ((Agent.timer.enabled s = false ∧ Agent.uart.enabled s = false) ↔ s.state = .idle)

/-- R114 (g): from a running state the outstanding event moves the machine: the step of an enabled timer or UART
changes the sequencer position. -/
def Obligations.OutstandingEventAdvancesThePosition : Prop :=
  ∀ (s : State) (e : Event) (rest : List Input), Inv s → s.inputs = .event e :: rest →
    (Input.event e).agent.enabled s = true →
    ∃ t, step s = .next t ∧ (t.state ≠ s.state ∨ t.slot ≠ s.slot ∨ t.bit ≠ s.bit)

/-! ### The byte on the wire -/

/-- R137: the byte sent is the integer part of `cur`, and is 255 only for `cur = 65280` when `cur ≤ 65280`. -/
def Obligations.SentByteIsTheIntegerPart : Prop :=
  ∀ e : Entry, e.sentByte.toNat = e.cur.toNat / 256 ∧ e.sentByte.toNat ≤ 255 ∧
    (e.cur.toNat ≤ 65280 → (e.sentByte.toNat = 255 ↔ e.cur.toNat = 65280))

/-- R136: the waveform of one byte in `BITBANG` mode with two stop bits: after the start bit, ten bit periods drive
the eight data bits, least significant first, and two stop bits; the eleventh event completes the byte. -/
def Obligations.BitbangWaveformOfOneByte : Prop :=
  ∀ (s : State) (rest : List Input), s.lock = false → s.cfg.txMode = .bitbang → s.cfg.stopBits = .two →
    s.state = .txStartCode ∨ s.state = .txByte → s.bit.toNat = 0 → s.tmrArmed = true → s.tmrDur = 4 →
    s.inputs = List.replicate 10 (.event .timerExpired) ++ rest →
    Sys2Proof.core.run 10 s = .next
      { s with inputs := rest, bit := 10, line := some .mark, vtimeUs := s.vtimeUs + 40,
               out := s.out ++
                 ((List.range 8).map fun k => Level.ofBit (s.txbyte.getLsbD k)).flatMap
                   (fun l => [Action.line l, Action.arm 4]) ++
                 [.line .mark, .arm 4, .line .mark, .arm 4] }

/-! ### The fade pipeline -/

/-- R152: `FadeEntry` on every entry and every `delta`, in exact integers. -/
def Obligations.FadeEntryResult : Prop :=
  (∀ (e : Entry) (d : Millis),
    (fadeEntry e d).tgt = e.tgt ∧
    (e.rem.toNat ≤ d.toNat → (fadeEntry e d).cur.toNat = e.tgt.toNat * 256 ∧ (fadeEntry e d).rem = 0) ∧
    (d.toNat < e.rem.toNat →
      ((fadeEntry e d).cur.toNat : Int) =
        max 0 (min 65280 (e.cur.toNat +
          Int.tdiv ((e.tgt.toNat * 256 - e.cur.toNat : Int) * d.toNat) e.rem.toNat)) ∧
      (fadeEntry e d).rem.toNat = e.rem.toNat - d.toNat)) ∧
  fadeEntry { cur := 0, tgt := 200, rem := 1000 } 100 = { cur := 5120, tgt := 200, rem := 900 }

/-- R150: for a store in canonical form the sweep is the loop over the entries 0 to 512. -/
def Obligations.SweepIsTheLoopOverAllEntries : Prop :=
  ∀ (m : Memory) (d : Millis), m.wf = true → fadeSweep m d = sweepLoop 513 m d

/-- R153: the bounds of the division branch. -/
def Obligations.FadeArithmeticBounds : Prop :=
  ∀ (e : Entry) (d : Millis), e.cur.toNat ≤ 65280 → d.toNat < e.rem.toNat →
    let gap : Int := e.tgt.toNat * 256 - e.cur.toNat
    d.toNat ≤ 65534 ∧ (gap * d.toNat).natAbs ≤ 4278059520 ∧ (gap * d.toNat).natAbs < 2 ^ 32 ∧
    (fadeStep e d).natAbs ≤ gap.natAbs * d.toNat / e.rem.toNat ∧ (gap ≠ 0 → (fadeStep e d).natAbs < gap.natAbs) ∧
    (fadeStep e d = 0 ∨ (fadeStep e d).sign = gap.sign) ∧ 1 ≤ e.rem.toNat - d.toNat

/-- R154: no overshoot: the level moves toward the target, reaches it in the division branch only if it was there, and
the clamp changes nothing; whatever the level was, it is at most 65280 after the sweep (R34 (a)). -/
def Obligations.FadeNeverOvershoots : Prop :=
  (∀ (e : Entry) (d : Millis), (fadeEntry e d).cur.toNat ≤ 65280) ∧
  ∀ (e : Entry) (d : Millis), e.cur.toNat ≤ 65280 → d.toNat < e.rem.toNat →
    let t := e.tgt.toNat * 256
    let c := e.cur.toNat
    let c' := (fadeEntry e d).cur.toNat
    (c < t → c ≤ c' ∧ c' < t) ∧ (t < c → t < c' ∧ c' ≤ c) ∧ (c = t → c' = t) ∧ (c' : Int) = c + fadeStep e d

/-- R155: exact arrival, after exactly `ceil(rem / delta)` sweeps; with `delta = 0` an entry with `rem > 0` never
arrives and never moves. -/
def Obligations.FadeArrivesExactly : Prop :=
  (∀ (e : Entry) (d : Millis), (fadeEntry e d).rem = 0 →
    (fadeEntry e d).cur.toNat = e.tgt.toNat * 256 ∧ (fadeEntry e d).sentByte = e.tgt) ∧
  (∀ (e : Entry) (d : Millis) (n : Nat), 0 < e.rem.toNat → 0 < d.toNat →
    ((sweeps d n e).rem = 0 ↔ (e.rem.toNat + d.toNat - 1) / d.toNat ≤ n)) ∧
  (∀ (e : Entry) (n : Nat), 0 < e.rem.toNat → e.cur.toNat ≤ 65280 → sweeps 0 n e = e)

/-- R156: when the scaled gap is below one unit the level stands still in that sweep and `rem` still decreases. -/
def Obligations.FadeStallsByTruncation : Prop :=
  ∀ (e : Entry) (d : Millis), e.cur.toNat ≤ 65280 → d.toNat < e.rem.toNat →
    (e.tgt.toNat * 256 - e.cur.toNat : Int).natAbs * d.toNat < e.rem.toNat →
    (fadeEntry e d).cur = e.cur ∧ (fadeEntry e d).rem.toNat = e.rem.toNat - d.toNat

/-- R160: the source's worked example, sweep by sweep. -/
def Obligations.FadeWorkedExample : Prop :=
  ((List.range 11).map fun n => sweeps 100 (n + 1) { cur := 0, tgt := 200, rem := 1000 }).map
      (fun e => (e.cur.toNat, e.tgt.toNat, e.rem.toNat, e.sentByte.toNat)) =
    [(5120, 200, 900, 20), (10240, 200, 800, 40), (15360, 200, 700, 60), (20480, 200, 600, 80),
     (25600, 200, 500, 100), (30720, 200, 400, 120), (35840, 200, 300, 140), (40960, 200, 200, 160),
     (46080, 200, 100, 180), (51200, 200, 0, 200), (51200, 200, 0, 200)]

/-- R158: a level written by SET holds through every later sweep; FADE starts from the level it finds; `FADE c, v, 0`
snaps at the next sweep. -/
def Obligations.SweepsAfterHostWrites : Prop :=
  ∀ (e : Entry) (v t : Nat) (d : Millis) (n : Nat), v ≤ 255 → t < 2 ^ 16 →
    (sweeps d n (setEntry e v)).cur.toNat = v * 256 ∧
    (sweeps d n (setEntry e v)).rem.toNat = e.rem.toNat - n * d.toNat ∧
    (d.toNat < t → e.cur.toNat ≤ 65280 → ((fadeEntry (fadeTo e v t) d).cur.toNat : Int) =
      e.cur.toNat + Int.tdiv ((v * 256 - e.cur.toNat : Int) * d.toNat) t) ∧
    (fadeEntry (fadeTo e v 0) d).cur.toNat = v * 256

/-! ### A whole frame -/

/-- R115: the events per frame of the four configurations with two stop bits. -/
def Obligations.EventsPerFrame : Prop :=
  ∀ c : Config, c.stopBits = .two →
    (c.txMode = .uart → c.markUs.toNat = 0 → (frameEvents c).length = 516) ∧
    (c.txMode = .uart → 0 < c.markUs.toNat → (frameEvents c).length = 1028) ∧
    (c.txMode = .bitbang → c.markUs.toNat = 0 → (frameEvents c).length = 5646) ∧
    (c.txMode = .bitbang → 0 < c.markUs.toNat → (frameEvents c).length = 6158)

/-- R115, R246: the events of one frame carry the machine from `MarkBeforeBreak` back to it, with the frame's actions
in slot order, one sweep, and the frame's virtual time. -/
def Obligations.FrameReturnsToMarkBeforeBreak : Prop :=
  ∀ (s : State) (rest : List Input), s.state = .markBeforeBreak → s.slot.toNat = 0 → s.bit.toNat = 0 →
    s.lock = false → s.stopReq = false → s.uartBusy = false → s.tmrArmed = true → s.tmrDur = s.cfg.mbbUs →
    s.line = some .mark → s.inputs = frameEvents s.cfg ++ rest →
    ∃ m, sweptFrom s.store s.cfg.deltaMs m ∧
      Sys2Proof.core.run (frameEvents s.cfg).length s = .next
        { s with inputs := rest, txbyte := slotByte s 512, store := m,
                 out := s.out ++ frameActions s.cfg s.store, vtimeUs := s.vtimeUs + frameUs s.cfg }

/-- R116, R172: with a stop requested the same frame still runs to its end, the sweep included, and then the engine is
in `Idle` with nothing outstanding. -/
def Obligations.StoppedFrameRunsToItsEnd : Prop :=
  ∀ (s : State) (rest : List Input), s.state = .markBeforeBreak → s.slot.toNat = 0 → s.bit.toNat = 0 →
    s.lock = false → s.stopReq = true → s.uartBusy = false → s.tmrArmed = true → s.tmrDur = s.cfg.mbbUs →
    s.line = some .mark → s.inputs = frameEvents s.cfg ++ rest →
    ∃ t, Sys2Proof.core.run (frameEvents s.cfg).length s = .next t ∧ t.state = .idle ∧ t.stopReq = false ∧
      t.tmrArmed = false ∧ t.uartBusy = false ∧ t.line = some .mark ∧ t.inputs = rest ∧ t.slot.toNat = 512 ∧
      sweptFrom s.store s.cfg.deltaMs t.store ∧ t.vtimeUs = s.vtimeUs + frameUs s.cfg ∧
      t.out ++ [.line .mark, .arm s.cfg.mbbUs] = s.out ++ frameActions s.cfg s.store
end

