-- ==== Sys2Proof/Laws/State.lean ====
section
/-! SUPPORT. One lemma per field per named update of State, each true by rfl (or by the update's one case split). -/

namespace Sys2Proof.Machine

open Sys2Proof

variable (s : State)

/-! ### setState -/

@[simp] theorem State.setState_cfg (p : FsmState) : (s.setState p).cfg = s.cfg := rfl
@[simp] theorem State.setState_state (p : FsmState) : (s.setState p).state = p := rfl
@[simp] theorem State.setState_slot (p : FsmState) : (s.setState p).slot = s.slot := rfl
@[simp] theorem State.setState_bit (p : FsmState) : (s.setState p).bit = s.bit := rfl
@[simp] theorem State.setState_txbyte (p : FsmState) : (s.setState p).txbyte = s.txbyte := rfl
@[simp] theorem State.setState_lock (p : FsmState) : (s.setState p).lock = s.lock := rfl
@[simp] theorem State.setState_stopReq (p : FsmState) : (s.setState p).stopReq = s.stopReq := rfl
@[simp] theorem State.setState_tmrArmed (p : FsmState) : (s.setState p).tmrArmed = s.tmrArmed := rfl
@[simp] theorem State.setState_tmrDur (p : FsmState) : (s.setState p).tmrDur = s.tmrDur := rfl
@[simp] theorem State.setState_uartBusy (p : FsmState) : (s.setState p).uartBusy = s.uartBusy := rfl
@[simp] theorem State.setState_line (p : FsmState) : (s.setState p).line = s.line := rfl
@[simp] theorem State.setState_out (p : FsmState) : (s.setState p).out = s.out := rfl
@[simp] theorem State.setState_vtimeUs (p : FsmState) : (s.setState p).vtimeUs = s.vtimeUs := rfl
@[simp] theorem State.setState_store (p : FsmState) : (s.setState p).store = s.store := rfl
@[simp] theorem State.setState_resps (p : FsmState) : (s.setState p).resps = s.resps := rfl
@[simp] theorem State.setState_inputs (p : FsmState) : (s.setState p).inputs = s.inputs := rfl

/-! ### setSlot -/

@[simp] theorem State.setSlot_cfg (n : BitVec 10) : (s.setSlot n).cfg = s.cfg := rfl
@[simp] theorem State.setSlot_state (n : BitVec 10) : (s.setSlot n).state = s.state := rfl
@[simp] theorem State.setSlot_slot (n : BitVec 10) : (s.setSlot n).slot = n := rfl
@[simp] theorem State.setSlot_bit (n : BitVec 10) : (s.setSlot n).bit = s.bit := rfl
@[simp] theorem State.setSlot_txbyte (n : BitVec 10) : (s.setSlot n).txbyte = s.txbyte := rfl
@[simp] theorem State.setSlot_lock (n : BitVec 10) : (s.setSlot n).lock = s.lock := rfl
@[simp] theorem State.setSlot_stopReq (n : BitVec 10) : (s.setSlot n).stopReq = s.stopReq := rfl
@[simp] theorem State.setSlot_tmrArmed (n : BitVec 10) : (s.setSlot n).tmrArmed = s.tmrArmed := rfl
@[simp] theorem State.setSlot_tmrDur (n : BitVec 10) : (s.setSlot n).tmrDur = s.tmrDur := rfl
@[simp] theorem State.setSlot_uartBusy (n : BitVec 10) : (s.setSlot n).uartBusy = s.uartBusy := rfl
@[simp] theorem State.setSlot_line (n : BitVec 10) : (s.setSlot n).line = s.line := rfl
@[simp] theorem State.setSlot_out (n : BitVec 10) : (s.setSlot n).out = s.out := rfl
@[simp] theorem State.setSlot_vtimeUs (n : BitVec 10) : (s.setSlot n).vtimeUs = s.vtimeUs := rfl
@[simp] theorem State.setSlot_store (n : BitVec 10) : (s.setSlot n).store = s.store := rfl
@[simp] theorem State.setSlot_resps (n : BitVec 10) : (s.setSlot n).resps = s.resps := rfl
@[simp] theorem State.setSlot_inputs (n : BitVec 10) : (s.setSlot n).inputs = s.inputs := rfl

/-! ### setBit -/

@[simp] theorem State.setBit_cfg (n : BitVec 4) : (s.setBit n).cfg = s.cfg := rfl
@[simp] theorem State.setBit_state (n : BitVec 4) : (s.setBit n).state = s.state := rfl
@[simp] theorem State.setBit_slot (n : BitVec 4) : (s.setBit n).slot = s.slot := rfl
@[simp] theorem State.setBit_bit (n : BitVec 4) : (s.setBit n).bit = n := rfl
@[simp] theorem State.setBit_txbyte (n : BitVec 4) : (s.setBit n).txbyte = s.txbyte := rfl
@[simp] theorem State.setBit_lock (n : BitVec 4) : (s.setBit n).lock = s.lock := rfl
@[simp] theorem State.setBit_stopReq (n : BitVec 4) : (s.setBit n).stopReq = s.stopReq := rfl
@[simp] theorem State.setBit_tmrArmed (n : BitVec 4) : (s.setBit n).tmrArmed = s.tmrArmed := rfl
@[simp] theorem State.setBit_tmrDur (n : BitVec 4) : (s.setBit n).tmrDur = s.tmrDur := rfl
@[simp] theorem State.setBit_uartBusy (n : BitVec 4) : (s.setBit n).uartBusy = s.uartBusy := rfl
@[simp] theorem State.setBit_line (n : BitVec 4) : (s.setBit n).line = s.line := rfl
@[simp] theorem State.setBit_out (n : BitVec 4) : (s.setBit n).out = s.out := rfl
@[simp] theorem State.setBit_vtimeUs (n : BitVec 4) : (s.setBit n).vtimeUs = s.vtimeUs := rfl
@[simp] theorem State.setBit_store (n : BitVec 4) : (s.setBit n).store = s.store := rfl
@[simp] theorem State.setBit_resps (n : BitVec 4) : (s.setBit n).resps = s.resps := rfl
@[simp] theorem State.setBit_inputs (n : BitVec 4) : (s.setBit n).inputs = s.inputs := rfl

/-! ### setTxbyte -/

@[simp] theorem State.setTxbyte_cfg (b : Byte) : (s.setTxbyte b).cfg = s.cfg := rfl
@[simp] theorem State.setTxbyte_state (b : Byte) : (s.setTxbyte b).state = s.state := rfl
@[simp] theorem State.setTxbyte_slot (b : Byte) : (s.setTxbyte b).slot = s.slot := rfl
@[simp] theorem State.setTxbyte_bit (b : Byte) : (s.setTxbyte b).bit = s.bit := rfl
@[simp] theorem State.setTxbyte_txbyte (b : Byte) : (s.setTxbyte b).txbyte = b := rfl
@[simp] theorem State.setTxbyte_lock (b : Byte) : (s.setTxbyte b).lock = s.lock := rfl
@[simp] theorem State.setTxbyte_stopReq (b : Byte) : (s.setTxbyte b).stopReq = s.stopReq := rfl
@[simp] theorem State.setTxbyte_tmrArmed (b : Byte) : (s.setTxbyte b).tmrArmed = s.tmrArmed := rfl
@[simp] theorem State.setTxbyte_tmrDur (b : Byte) : (s.setTxbyte b).tmrDur = s.tmrDur := rfl
@[simp] theorem State.setTxbyte_uartBusy (b : Byte) : (s.setTxbyte b).uartBusy = s.uartBusy := rfl
@[simp] theorem State.setTxbyte_line (b : Byte) : (s.setTxbyte b).line = s.line := rfl
@[simp] theorem State.setTxbyte_out (b : Byte) : (s.setTxbyte b).out = s.out := rfl
@[simp] theorem State.setTxbyte_vtimeUs (b : Byte) : (s.setTxbyte b).vtimeUs = s.vtimeUs := rfl
@[simp] theorem State.setTxbyte_store (b : Byte) : (s.setTxbyte b).store = s.store := rfl
@[simp] theorem State.setTxbyte_resps (b : Byte) : (s.setTxbyte b).resps = s.resps := rfl
@[simp] theorem State.setTxbyte_inputs (b : Byte) : (s.setTxbyte b).inputs = s.inputs := rfl

/-! ### setStore -/

@[simp] theorem State.setStore_cfg (m : Memory) : (s.setStore m).cfg = s.cfg := rfl
@[simp] theorem State.setStore_state (m : Memory) : (s.setStore m).state = s.state := rfl
@[simp] theorem State.setStore_slot (m : Memory) : (s.setStore m).slot = s.slot := rfl
@[simp] theorem State.setStore_bit (m : Memory) : (s.setStore m).bit = s.bit := rfl
@[simp] theorem State.setStore_txbyte (m : Memory) : (s.setStore m).txbyte = s.txbyte := rfl
@[simp] theorem State.setStore_lock (m : Memory) : (s.setStore m).lock = s.lock := rfl
@[simp] theorem State.setStore_stopReq (m : Memory) : (s.setStore m).stopReq = s.stopReq := rfl
@[simp] theorem State.setStore_tmrArmed (m : Memory) : (s.setStore m).tmrArmed = s.tmrArmed := rfl
@[simp] theorem State.setStore_tmrDur (m : Memory) : (s.setStore m).tmrDur = s.tmrDur := rfl
@[simp] theorem State.setStore_uartBusy (m : Memory) : (s.setStore m).uartBusy = s.uartBusy := rfl
@[simp] theorem State.setStore_line (m : Memory) : (s.setStore m).line = s.line := rfl
@[simp] theorem State.setStore_out (m : Memory) : (s.setStore m).out = s.out := rfl
@[simp] theorem State.setStore_vtimeUs (m : Memory) : (s.setStore m).vtimeUs = s.vtimeUs := rfl
@[simp] theorem State.setStore_store (m : Memory) : (s.setStore m).store = m := rfl
@[simp] theorem State.setStore_resps (m : Memory) : (s.setStore m).resps = s.resps := rfl
@[simp] theorem State.setStore_inputs (m : Memory) : (s.setStore m).inputs = s.inputs := rfl

/-! ### setInputs -/

@[simp] theorem State.setInputs_cfg (l : List Input) : (s.setInputs l).cfg = s.cfg := rfl
@[simp] theorem State.setInputs_state (l : List Input) : (s.setInputs l).state = s.state := rfl
@[simp] theorem State.setInputs_slot (l : List Input) : (s.setInputs l).slot = s.slot := rfl
@[simp] theorem State.setInputs_bit (l : List Input) : (s.setInputs l).bit = s.bit := rfl
@[simp] theorem State.setInputs_txbyte (l : List Input) : (s.setInputs l).txbyte = s.txbyte := rfl
@[simp] theorem State.setInputs_lock (l : List Input) : (s.setInputs l).lock = s.lock := rfl
@[simp] theorem State.setInputs_stopReq (l : List Input) : (s.setInputs l).stopReq = s.stopReq := rfl
@[simp] theorem State.setInputs_tmrArmed (l : List Input) : (s.setInputs l).tmrArmed = s.tmrArmed := rfl
@[simp] theorem State.setInputs_tmrDur (l : List Input) : (s.setInputs l).tmrDur = s.tmrDur := rfl
@[simp] theorem State.setInputs_uartBusy (l : List Input) : (s.setInputs l).uartBusy = s.uartBusy := rfl
@[simp] theorem State.setInputs_line (l : List Input) : (s.setInputs l).line = s.line := rfl
@[simp] theorem State.setInputs_out (l : List Input) : (s.setInputs l).out = s.out := rfl
@[simp] theorem State.setInputs_vtimeUs (l : List Input) : (s.setInputs l).vtimeUs = s.vtimeUs := rfl
@[simp] theorem State.setInputs_store (l : List Input) : (s.setInputs l).store = s.store := rfl
@[simp] theorem State.setInputs_resps (l : List Input) : (s.setInputs l).resps = s.resps := rfl
@[simp] theorem State.setInputs_inputs (l : List Input) : (s.setInputs l).inputs = l := rfl

/-! ### setLock -/

@[simp] theorem State.setLock_cfg (b : Bool) : (s.setLock b).cfg = s.cfg := rfl
@[simp] theorem State.setLock_state (b : Bool) : (s.setLock b).state = s.state := rfl
@[simp] theorem State.setLock_slot (b : Bool) : (s.setLock b).slot = s.slot := rfl
@[simp] theorem State.setLock_bit (b : Bool) : (s.setLock b).bit = s.bit := rfl
@[simp] theorem State.setLock_txbyte (b : Bool) : (s.setLock b).txbyte = s.txbyte := rfl
@[simp] theorem State.setLock_lock (b : Bool) : (s.setLock b).lock = b := rfl
@[simp] theorem State.setLock_stopReq (b : Bool) : (s.setLock b).stopReq = s.stopReq := rfl
@[simp] theorem State.setLock_tmrArmed (b : Bool) : (s.setLock b).tmrArmed = s.tmrArmed := rfl
@[simp] theorem State.setLock_tmrDur (b : Bool) : (s.setLock b).tmrDur = s.tmrDur := rfl
@[simp] theorem State.setLock_uartBusy (b : Bool) : (s.setLock b).uartBusy = s.uartBusy := rfl
@[simp] theorem State.setLock_line (b : Bool) : (s.setLock b).line = s.line := rfl
@[simp] theorem State.setLock_out (b : Bool) : (s.setLock b).out = s.out := rfl
@[simp] theorem State.setLock_vtimeUs (b : Bool) : (s.setLock b).vtimeUs = s.vtimeUs := rfl
@[simp] theorem State.setLock_store (b : Bool) : (s.setLock b).store = s.store := rfl
@[simp] theorem State.setLock_resps (b : Bool) : (s.setLock b).resps = s.resps := rfl
@[simp] theorem State.setLock_inputs (b : Bool) : (s.setLock b).inputs = s.inputs := rfl

/-! ### setStopReq -/

@[simp] theorem State.setStopReq_cfg (b : Bool) : (s.setStopReq b).cfg = s.cfg := rfl
@[simp] theorem State.setStopReq_state (b : Bool) : (s.setStopReq b).state = s.state := rfl
@[simp] theorem State.setStopReq_slot (b : Bool) : (s.setStopReq b).slot = s.slot := rfl
@[simp] theorem State.setStopReq_bit (b : Bool) : (s.setStopReq b).bit = s.bit := rfl
@[simp] theorem State.setStopReq_txbyte (b : Bool) : (s.setStopReq b).txbyte = s.txbyte := rfl
@[simp] theorem State.setStopReq_lock (b : Bool) : (s.setStopReq b).lock = s.lock := rfl
@[simp] theorem State.setStopReq_stopReq (b : Bool) : (s.setStopReq b).stopReq = b := rfl
@[simp] theorem State.setStopReq_tmrArmed (b : Bool) : (s.setStopReq b).tmrArmed = s.tmrArmed := rfl
@[simp] theorem State.setStopReq_tmrDur (b : Bool) : (s.setStopReq b).tmrDur = s.tmrDur := rfl
@[simp] theorem State.setStopReq_uartBusy (b : Bool) : (s.setStopReq b).uartBusy = s.uartBusy := rfl
@[simp] theorem State.setStopReq_line (b : Bool) : (s.setStopReq b).line = s.line := rfl
@[simp] theorem State.setStopReq_out (b : Bool) : (s.setStopReq b).out = s.out := rfl
@[simp] theorem State.setStopReq_vtimeUs (b : Bool) : (s.setStopReq b).vtimeUs = s.vtimeUs := rfl
@[simp] theorem State.setStopReq_store (b : Bool) : (s.setStopReq b).store = s.store := rfl
@[simp] theorem State.setStopReq_resps (b : Bool) : (s.setStopReq b).resps = s.resps := rfl
@[simp] theorem State.setStopReq_inputs (b : Bool) : (s.setStopReq b).inputs = s.inputs := rfl

/-! ### setBusy -/

@[simp] theorem State.setBusy_cfg : (s.setBusy).cfg = s.cfg := rfl
@[simp] theorem State.setBusy_state : (s.setBusy).state = s.state := rfl
@[simp] theorem State.setBusy_slot : (s.setBusy).slot = s.slot := rfl
@[simp] theorem State.setBusy_bit : (s.setBusy).bit = s.bit := rfl
@[simp] theorem State.setBusy_txbyte : (s.setBusy).txbyte = s.txbyte := rfl
@[simp] theorem State.setBusy_lock : (s.setBusy).lock = s.lock := rfl
@[simp] theorem State.setBusy_stopReq : (s.setBusy).stopReq = s.stopReq := rfl
@[simp] theorem State.setBusy_tmrArmed : (s.setBusy).tmrArmed = s.tmrArmed := rfl
@[simp] theorem State.setBusy_tmrDur : (s.setBusy).tmrDur = s.tmrDur := rfl
@[simp] theorem State.setBusy_uartBusy : (s.setBusy).uartBusy = true := rfl
@[simp] theorem State.setBusy_line : (s.setBusy).line = s.line := rfl
@[simp] theorem State.setBusy_out : (s.setBusy).out = s.out := rfl
@[simp] theorem State.setBusy_vtimeUs : (s.setBusy).vtimeUs = s.vtimeUs := rfl
@[simp] theorem State.setBusy_store : (s.setBusy).store = s.store := rfl
@[simp] theorem State.setBusy_resps : (s.setBusy).resps = s.resps := rfl
@[simp] theorem State.setBusy_inputs : (s.setBusy).inputs = s.inputs := rfl

/-! ### emit -/

@[simp] theorem State.emit_cfg (a : Action) : (s.emit a).cfg = s.cfg := rfl
@[simp] theorem State.emit_state (a : Action) : (s.emit a).state = s.state := rfl
@[simp] theorem State.emit_slot (a : Action) : (s.emit a).slot = s.slot := rfl
@[simp] theorem State.emit_bit (a : Action) : (s.emit a).bit = s.bit := rfl
@[simp] theorem State.emit_txbyte (a : Action) : (s.emit a).txbyte = s.txbyte := rfl
@[simp] theorem State.emit_lock (a : Action) : (s.emit a).lock = s.lock := rfl
@[simp] theorem State.emit_stopReq (a : Action) : (s.emit a).stopReq = s.stopReq := rfl
@[simp] theorem State.emit_tmrArmed (a : Action) : (s.emit a).tmrArmed = s.tmrArmed := rfl
@[simp] theorem State.emit_tmrDur (a : Action) : (s.emit a).tmrDur = s.tmrDur := rfl
@[simp] theorem State.emit_uartBusy (a : Action) : (s.emit a).uartBusy = s.uartBusy := rfl
@[simp] theorem State.emit_line (a : Action) : (s.emit a).line = a.drives.or s.line := rfl
@[simp] theorem State.emit_out (a : Action) : (s.emit a).out = s.out ++ [a] := rfl
@[simp] theorem State.emit_vtimeUs (a : Action) : (s.emit a).vtimeUs = s.vtimeUs := rfl
@[simp] theorem State.emit_store (a : Action) : (s.emit a).store = s.store := rfl
@[simp] theorem State.emit_resps (a : Action) : (s.emit a).resps = s.resps := rfl
@[simp] theorem State.emit_inputs (a : Action) : (s.emit a).inputs = s.inputs := rfl

/-! ### arm -/

@[simp] theorem State.arm_cfg (d : Micros) : (s.arm d).cfg = s.cfg := rfl
@[simp] theorem State.arm_state (d : Micros) : (s.arm d).state = s.state := rfl
@[simp] theorem State.arm_slot (d : Micros) : (s.arm d).slot = s.slot := rfl
@[simp] theorem State.arm_bit (d : Micros) : (s.arm d).bit = s.bit := rfl
@[simp] theorem State.arm_txbyte (d : Micros) : (s.arm d).txbyte = s.txbyte := rfl
@[simp] theorem State.arm_lock (d : Micros) : (s.arm d).lock = s.lock := rfl
@[simp] theorem State.arm_stopReq (d : Micros) : (s.arm d).stopReq = s.stopReq := rfl
@[simp] theorem State.arm_tmrArmed (d : Micros) : (s.arm d).tmrArmed = true := rfl
@[simp] theorem State.arm_tmrDur (d : Micros) : (s.arm d).tmrDur = d := rfl
@[simp] theorem State.arm_uartBusy (d : Micros) : (s.arm d).uartBusy = s.uartBusy := rfl
@[simp] theorem State.arm_line (d : Micros) : (s.arm d).line = s.line := rfl
@[simp] theorem State.arm_out (d : Micros) : (s.arm d).out = s.out ++ [.arm d] := rfl
@[simp] theorem State.arm_vtimeUs (d : Micros) : (s.arm d).vtimeUs = s.vtimeUs := rfl
@[simp] theorem State.arm_store (d : Micros) : (s.arm d).store = s.store := rfl
@[simp] theorem State.arm_resps (d : Micros) : (s.arm d).resps = s.resps := rfl
@[simp] theorem State.arm_inputs (d : Micros) : (s.arm d).inputs = s.inputs := rfl

/-! ### respond -/

@[simp] theorem State.respond_cfg (r : Resp) : (s.respond r).cfg = s.cfg := rfl
@[simp] theorem State.respond_state (r : Resp) : (s.respond r).state = s.state := rfl
@[simp] theorem State.respond_slot (r : Resp) : (s.respond r).slot = s.slot := rfl
@[simp] theorem State.respond_bit (r : Resp) : (s.respond r).bit = s.bit := rfl
@[simp] theorem State.respond_txbyte (r : Resp) : (s.respond r).txbyte = s.txbyte := rfl
@[simp] theorem State.respond_lock (r : Resp) : (s.respond r).lock = s.lock := rfl
@[simp] theorem State.respond_stopReq (r : Resp) : (s.respond r).stopReq = s.stopReq := rfl
@[simp] theorem State.respond_tmrArmed (r : Resp) : (s.respond r).tmrArmed = s.tmrArmed := rfl
@[simp] theorem State.respond_tmrDur (r : Resp) : (s.respond r).tmrDur = s.tmrDur := rfl
@[simp] theorem State.respond_uartBusy (r : Resp) : (s.respond r).uartBusy = s.uartBusy := rfl
@[simp] theorem State.respond_line (r : Resp) : (s.respond r).line = s.line := rfl
@[simp] theorem State.respond_out (r : Resp) : (s.respond r).out = s.out := rfl
@[simp] theorem State.respond_vtimeUs (r : Resp) : (s.respond r).vtimeUs = s.vtimeUs := rfl
@[simp] theorem State.respond_store (r : Resp) : (s.respond r).store = s.store := rfl
@[simp] theorem State.respond_resps (r : Resp) : (s.respond r).resps = s.resps ++ [r] := rfl
@[simp] theorem State.respond_inputs (r : Resp) : (s.respond r).inputs = s.inputs := rfl

/-! ### timerFired -/

@[simp] theorem State.timerFired_cfg : s.timerFired.cfg = s.cfg := by unfold State.timerFired; split <;> rfl
@[simp] theorem State.timerFired_state : s.timerFired.state = s.state := by unfold State.timerFired; split <;> rfl
@[simp] theorem State.timerFired_slot : s.timerFired.slot = s.slot := by unfold State.timerFired; split <;> rfl
@[simp] theorem State.timerFired_bit : s.timerFired.bit = s.bit := by unfold State.timerFired; split <;> rfl
@[simp] theorem State.timerFired_txbyte : s.timerFired.txbyte = s.txbyte := by unfold State.timerFired; split <;> rfl
@[simp] theorem State.timerFired_lock : s.timerFired.lock = s.lock := by unfold State.timerFired; split <;> rfl
@[simp] theorem State.timerFired_stopReq : s.timerFired.stopReq = s.stopReq := by unfold State.timerFired; split <;> rfl
@[simp] theorem State.timerFired_tmrArmed : s.timerFired.tmrArmed = false := by
  unfold State.timerFired; split <;> simp_all
@[simp] theorem State.timerFired_tmrDur : s.timerFired.tmrDur = s.tmrDur := by unfold State.timerFired; split <;> rfl
@[simp] theorem State.timerFired_uartBusy : s.timerFired.uartBusy = s.uartBusy := by unfold State.timerFired; split <;> rfl
@[simp] theorem State.timerFired_line : s.timerFired.line = s.line := by unfold State.timerFired; split <;> rfl
@[simp] theorem State.timerFired_out : s.timerFired.out = s.out := by unfold State.timerFired; split <;> rfl
@[simp] theorem State.timerFired_vtimeUs : s.timerFired.vtimeUs = s.vtimeUs + (if s.tmrArmed then s.tmrDur.toNat else 0) := by
  unfold State.timerFired; split <;> simp_all
@[simp] theorem State.timerFired_store : s.timerFired.store = s.store := by unfold State.timerFired; split <;> rfl
@[simp] theorem State.timerFired_resps : s.timerFired.resps = s.resps := by unfold State.timerFired; split <;> rfl
@[simp] theorem State.timerFired_inputs : s.timerFired.inputs = s.inputs := by unfold State.timerFired; split <;> rfl

/-! ### byteSent -/

@[simp] theorem State.byteSent_cfg : s.byteSent.cfg = s.cfg := by unfold State.byteSent; split <;> rfl
@[simp] theorem State.byteSent_state : s.byteSent.state = s.state := by unfold State.byteSent; split <;> rfl
@[simp] theorem State.byteSent_slot : s.byteSent.slot = s.slot := by unfold State.byteSent; split <;> rfl
@[simp] theorem State.byteSent_bit : s.byteSent.bit = s.bit := by unfold State.byteSent; split <;> rfl
@[simp] theorem State.byteSent_txbyte : s.byteSent.txbyte = s.txbyte := by unfold State.byteSent; split <;> rfl
@[simp] theorem State.byteSent_lock : s.byteSent.lock = s.lock := by unfold State.byteSent; split <;> rfl
@[simp] theorem State.byteSent_stopReq : s.byteSent.stopReq = s.stopReq := by unfold State.byteSent; split <;> rfl
@[simp] theorem State.byteSent_tmrArmed : s.byteSent.tmrArmed = s.tmrArmed := by unfold State.byteSent; split <;> rfl
@[simp] theorem State.byteSent_tmrDur : s.byteSent.tmrDur = s.tmrDur := by unfold State.byteSent; split <;> rfl
@[simp] theorem State.byteSent_uartBusy : s.byteSent.uartBusy = false := by
  unfold State.byteSent; split <;> simp_all
@[simp] theorem State.byteSent_line : s.byteSent.line = s.line := by unfold State.byteSent; split <;> rfl
@[simp] theorem State.byteSent_out : s.byteSent.out = s.out := by unfold State.byteSent; split <;> rfl
@[simp] theorem State.byteSent_vtimeUs : s.byteSent.vtimeUs = s.vtimeUs + (if s.uartBusy then s.cfg.byteUs else 0) := by
  unfold State.byteSent; split <;> simp_all
@[simp] theorem State.byteSent_store : s.byteSent.store = s.store := by unfold State.byteSent; split <;> rfl
@[simp] theorem State.byteSent_resps : s.byteSent.resps = s.resps := by unfold State.byteSent; split <;> rfl
@[simp] theorem State.byteSent_inputs : s.byteSent.inputs = s.inputs := by unfold State.byteSent; split <;> rfl

/-! ### requestStop -/

@[simp] theorem State.requestStop_cfg : s.requestStop.cfg = s.cfg := by unfold State.requestStop; split <;> rfl
@[simp] theorem State.requestStop_state : s.requestStop.state = s.state := by unfold State.requestStop; split <;> rfl
@[simp] theorem State.requestStop_slot : s.requestStop.slot = s.slot := by unfold State.requestStop; split <;> rfl
@[simp] theorem State.requestStop_bit : s.requestStop.bit = s.bit := by unfold State.requestStop; split <;> rfl
@[simp] theorem State.requestStop_txbyte : s.requestStop.txbyte = s.txbyte := by unfold State.requestStop; split <;> rfl
@[simp] theorem State.requestStop_lock : s.requestStop.lock = s.lock := by unfold State.requestStop; split <;> rfl
@[simp] theorem State.requestStop_stopReq : s.requestStop.stopReq = (if s.state = .idle then s.stopReq else true) := by
  unfold State.requestStop; split <;> simp_all
@[simp] theorem State.requestStop_tmrArmed : s.requestStop.tmrArmed = s.tmrArmed := by unfold State.requestStop; split <;> rfl
@[simp] theorem State.requestStop_tmrDur : s.requestStop.tmrDur = s.tmrDur := by unfold State.requestStop; split <;> rfl
@[simp] theorem State.requestStop_uartBusy : s.requestStop.uartBusy = s.uartBusy := by unfold State.requestStop; split <;> rfl
@[simp] theorem State.requestStop_line : s.requestStop.line = s.line := by unfold State.requestStop; split <;> rfl
@[simp] theorem State.requestStop_out : s.requestStop.out = s.out := by unfold State.requestStop; split <;> rfl
@[simp] theorem State.requestStop_vtimeUs : s.requestStop.vtimeUs = s.vtimeUs := by unfold State.requestStop; split <;> rfl
@[simp] theorem State.requestStop_store : s.requestStop.store = s.store := by unfold State.requestStop; split <;> rfl
@[simp] theorem State.requestStop_resps : s.requestStop.resps = s.resps := by unfold State.requestStop; split <;> rfl
@[simp] theorem State.requestStop_inputs : s.requestStop.inputs = s.inputs := by unfold State.requestStop; split <;> rfl

/-! ### doReset -/

@[simp] theorem doReset_cfg : (doReset s).cfg = s.cfg := rfl
@[simp] theorem doReset_state : (doReset s).state = .idle := rfl
@[simp] theorem doReset_slot : (doReset s).slot = 0 := rfl
@[simp] theorem doReset_bit : (doReset s).bit = 0 := rfl
@[simp] theorem doReset_txbyte : (doReset s).txbyte = 0 := rfl
@[simp] theorem doReset_lock : (doReset s).lock = false := rfl
@[simp] theorem doReset_stopReq : (doReset s).stopReq = false := rfl
@[simp] theorem doReset_tmrArmed : (doReset s).tmrArmed = false := rfl
@[simp] theorem doReset_tmrDur : (doReset s).tmrDur = 0 := rfl
@[simp] theorem doReset_uartBusy : (doReset s).uartBusy = false := rfl
@[simp] theorem doReset_line : (doReset s).line = none := rfl
@[simp] theorem doReset_out : (doReset s).out = [] := rfl
@[simp] theorem doReset_vtimeUs : (doReset s).vtimeUs = 0 := rfl
@[simp] theorem doReset_store : (doReset s).store = s.cfg.initScene := rfl
@[simp] theorem doReset_resps : (doReset s).resps = [] := rfl
@[simp] theorem doReset_inputs : (doReset s).inputs = s.inputs := rfl

end Sys2Proof.Machine
end

