-- ==== Sys2Proof/Laws/Sequencer.lean ====
section
/-! SUPPORT. What each shared operation of a step can do, said once: when it answers a next state, and which. -/

namespace Sys2Proof.Machine

open Sys2Proof

/-- A sequence answers a next state exactly when both its halves do. -/
theorem andThen_next_iff {o : Result} {f : State → Result} {t : State} :
    andThen o f = .next t ↔ ∃ u, o = .next u ∧ f u = .next t := by
  cases o <;> simp [andThen]

@[simp] theorem andThen_next (s : State) (f : State → Result) : andThen (.next s) f = f s := rfl

/-- `MemRead` goes on exactly for an index that names an entry. -/
theorem readEntry_next_iff {i : Nat} {s t : State} {k : Entry → Result} :
    readEntry i s k = .next t ↔ i ≤ channelCount ∧ k (s.store.read i) = .next t := by
  unfold readEntry; split <;> simp_all

/-- `MemWrite` writes exactly an index that names an entry. -/
theorem writeEntry_next_iff {i : Nat} {e : Entry} {s t : State} :
    writeEntry i e s = .next t ↔ i ≤ channelCount ∧ s.setStore (s.store.write i e) = t := by
  unfold writeEntry; split <;> simp_all

/-- The latch writes `txbyte` with the byte of the entry `slot` names, and nothing else. -/
theorem latchByte_next_iff {s t : State} :
    latchByte s = .next t ↔
      s.slot.toNat ≤ channelCount ∧ s.setTxbyte (s.store.read s.slot.toNat).sentByte = t := by
  simp [latchByte, readEntry_next_iff]

/-- Everything the byte transmitter's action can do (41_byte_transmit.md R130). -/
theorem txAction_next_iff {s t : State} :
    txAction s = .next t ↔
      (s.cfg.txMode = .uart ∧ s.slot.toNat ≤ channelCount ∧
        uartSend (s.setTxbyte (s.store.read s.slot.toNat).sentByte) = t) ∨
      (s.cfg.txMode = .bitbang ∧ s.bit.toNat = 0 ∧ s.slot.toNat ≤ channelCount ∧
        driveCell (s.setTxbyte (s.store.read s.slot.toNat).sentByte) = t) ∨
      (s.cfg.txMode = .bitbang ∧ s.bit.toNat ≠ 0 ∧ s.bit.toNat ≤ s.cfg.lastBit ∧ driveCell s = t) := by
  unfold txAction
  cases hm : s.cfg.txMode with
  | uart => simp [andThen_next_iff, latchByte_next_iff, and_assoc]
  | bitbang =>
    by_cases hb : s.bit.toNat = 0
    · simp [hb, andThen_next_iff, latchByte_next_iff, and_assoc]
    · by_cases hl : s.bit.toNat ≤ s.cfg.lastBit <;> simp [hb, hl]

/-- Everything byte completion can do (R135). -/
theorem byteDone_next_iff {s t : State} :
    byteDone s = .next t ↔
      (s.slot.toNat = channelCount ∧ s.setState .update = t) ∨
      (s.slot.toNat < channelCount ∧ ((s.setState (afterByte s)).setSlot (s.slot + 1)).setBit 0 = t) := by
  unfold byteDone
  by_cases h : s.slot.toNat = channelCount
  · simp [h]
  · by_cases h' : s.slot.toNat < channelCount <;> simp [h, h']

/-- Everything the end of a bit period can do (40_fsm_sequencer.md R109). -/
theorem bitElapsed_next_iff {s t : State} :
    bitElapsed s = .next t ↔
      (s.bit.toNat < s.cfg.lastBit ∧ s.setBit (s.bit + 1) = t) ∨
      (s.bit.toNat = s.cfg.lastBit ∧ byteDone s = .next t) := by
  unfold bitElapsed
  by_cases h : s.bit.toNat < s.cfg.lastBit
  · have h' : ¬ s.bit.toNat = s.cfg.lastBit := by omega
    simp [h, h']
  · by_cases h' : s.bit.toNat = s.cfg.lastBit
    · simp [h']
    · simp [h, h']

/-- The action under the lock answers the action's state with the lock free (60_exceptions.md R196). -/
theorem lockedAction_next_iff {s t : State} :
    lockedAction s = .next t ↔ ∃ u, action (s.setLock true) = .next u ∧ u.setLock false = t := by
  simp [lockedAction, andThen_next_iff]

/-- The second half of a delivery: suppressed by a held lock, else the action (R196, R197). -/
theorem runAction_next_iff {s t : State} :
    runAction s = .next t ↔ (s.lock = true ∧ s = t) ∨ (s.lock = false ∧ lockedAction s = .next t) := by
  unfold runAction
  cases s.lock <;> simp

/-- Everything a delivery can do (R196): nothing for an event the state does not accept, else the transition's
register writes and then the action's half. -/
theorem deliver_next_iff {e : Event} {s t : State} :
    deliver e s = .next t ↔
      (transition s.cfg s.state e = .ignore ∧ s = t) ∨
      (transition s.cfg s.state e ≠ .ignore ∧
        ∃ u, applyTransition (transition s.cfg s.state e) s = .next u ∧ runAction u = .next t) := by
  unfold deliver
  cases h : transition s.cfg s.state e <;> simp [andThen_next_iff]

/-- An event a state does not accept changes nothing (40_fsm_sequencer.md R112). -/
theorem deliver_ignored {e : Event} {s : State} (h : transition s.cfg s.state e = .ignore) : deliver e s = .next s := by
  simp [deliver, h]

/-- A stop is honoured, or a frame begins (R96). -/
theorem actMarkBeforeBreak_cases (s : State) :
    (s.stopReq = true ∧ actMarkBeforeBreak s = (s.setStopReq false).setState .idle) ∨
    (s.stopReq = false ∧
      actMarkBeforeBreak s = (((s.emit (.line .mark)).setSlot 0).setBit 0).arm s.cfg.mbbUs) := by
  unfold actMarkBeforeBreak
  cases s.stopReq <;> simp

/-- `MarkBeforeBreak`'s action leaves these fields alone, and the trace only grows. -/
theorem actMarkBeforeBreak_frame (s : State) :
    (actMarkBeforeBreak s).cfg = s.cfg ∧ (actMarkBeforeBreak s).lock = s.lock ∧
    (actMarkBeforeBreak s).txbyte = s.txbyte ∧ (actMarkBeforeBreak s).uartBusy = s.uartBusy ∧
    (actMarkBeforeBreak s).vtimeUs = s.vtimeUs ∧ (actMarkBeforeBreak s).store = s.store ∧
    (actMarkBeforeBreak s).resps = s.resps ∧ (actMarkBeforeBreak s).inputs = s.inputs ∧
    s.out <+: (actMarkBeforeBreak s).out := by
  rcases actMarkBeforeBreak_cases s with ⟨-, h⟩ | ⟨-, h⟩ <;> rw [h] <;> simp

/-- What every action leaves alone; the sweep is the action of `Update` and of no other state. -/
theorem action_frame {s t : State} (h : action s = .next t) :
    t.cfg = s.cfg ∧ t.lock = s.lock ∧ t.vtimeUs = s.vtimeUs ∧ t.resps = s.resps ∧ t.inputs = s.inputs ∧
    (t.store = if s.state = .update then fadeSweep s.store s.cfg.deltaMs else s.store) ∧ s.out <+: t.out := by
  have htx : txAction s = .next t →
      t.cfg = s.cfg ∧ t.lock = s.lock ∧ t.vtimeUs = s.vtimeUs ∧ t.resps = s.resps ∧ t.inputs = s.inputs ∧
      t.store = s.store ∧ s.out <+: t.out := by
    intro h
    rcases txAction_next_iff.1 h with ⟨-, -, rfl⟩ | ⟨-, -, -, rfl⟩ | ⟨-, -, -, rfl⟩ <;> simp [uartSend, driveCell]
  unfold action at h
  cases hs : s.state <;> simp only [hs, Host.Outcome.next.injEq, reduceCtorEq] at h
  case idle => subst h; simp
  case init => subst h; simp [actInit]
  case markBeforeBreak => subst h; have := actMarkBeforeBreak_frame s; simp [this]
  case lineBreak => subst h; unfold actBreak; split <;> simp
  case markAfterBreak => subst h; simp [actMarkAfterBreak]
  case txStartCode => simpa using htx h
  case txStartMark => subst h; simp [actMark]
  case txByte => simpa using htx h
  case txMark => subst h; simp [actMark]
  case update =>
    subst h
    have := actMarkBeforeBreak_frame ((s.setStore (fadeSweep s.store s.cfg.deltaMs)).setState .markBeforeBreak)
    obtain ⟨h1, h2, -, -, h5, h6, h7, h8, h9⟩ := this
    exact ⟨h1, h2, h5, h7, h8, h6, h9⟩

/-- What a transition's register writes leave alone: everything but `state`, `slot` and `bit` (R196). -/
theorem applyTransition_frame {tr : Transition} {s t : State} (h : applyTransition tr s = .next t) :
    t.cfg = s.cfg ∧ t.txbyte = s.txbyte ∧ t.lock = s.lock ∧ t.stopReq = s.stopReq ∧ t.tmrArmed = s.tmrArmed ∧
    t.tmrDur = s.tmrDur ∧ t.uartBusy = s.uartBusy ∧ t.line = s.line ∧ t.out = s.out ∧ t.vtimeUs = s.vtimeUs ∧
    t.store = s.store ∧ t.resps = s.resps ∧ t.inputs = s.inputs := by
  have hd (h : byteDone s = .next t) : ∃ p n b, t = ((s.setState p).setSlot n).setBit b := by
    rcases byteDone_next_iff.1 h with ⟨-, rfl⟩ | ⟨-, rfl⟩
    · exact ⟨.update, s.slot, s.bit, rfl⟩
    · exact ⟨_, _, _, rfl⟩
  have ht : ∃ p n b, t = ((s.setState p).setSlot n).setBit b := by
    cases tr with
    | ignore => simp only [applyTransition, Host.Outcome.next.injEq] at h; exact ⟨s.state, s.slot, s.bit, h.symm⟩
    | goto p => simp only [applyTransition, Host.Outcome.next.injEq] at h; exact ⟨p, s.slot, s.bit, h.symm⟩
    | byteDone => exact hd h
    | bitElapsed =>
      rcases bitElapsed_next_iff.1 h with ⟨-, rfl⟩ | ⟨-, h'⟩
      · exact ⟨s.state, s.slot, s.bit + 1, rfl⟩
      · exact hd h'
  obtain ⟨p, n, b, rfl⟩ := ht
  simp

/-- The three ways a delivery ends in a next state (R196, R197): the event is ignored, the lock suppresses the action,
or the transition's action runs and leaves the lock free. -/
theorem deliver_cases {e : Event} {s t : State} (h : deliver e s = .next t) :
    (transition s.cfg s.state e = .ignore ∧ t = s) ∨
    (s.lock = true ∧ transition s.cfg s.state e ≠ .ignore ∧
      applyTransition (transition s.cfg s.state e) s = .next t) ∨
    (s.lock = false ∧ transition s.cfg s.state e ≠ .ignore ∧
      ∃ u v, applyTransition (transition s.cfg s.state e) s = .next u ∧ action (u.setLock true) = .next v ∧
        t = v.setLock false) := by
  rcases deliver_next_iff.1 h with ⟨h1, h2⟩ | ⟨h1, u, h2, h3⟩
  · exact .inl ⟨h1, h2.symm⟩
  · have hu : u.lock = s.lock := (applyTransition_frame h2).2.2.1
    rcases runAction_next_iff.1 h3 with ⟨h4, rfl⟩ | ⟨h4, h5⟩
    · exact .inr (.inl ⟨hu ▸ h4, h1, h2⟩)
    · obtain ⟨v, h6, h7⟩ := lockedAction_next_iff.1 h5
      exact .inr (.inr ⟨hu ▸ h4, h1, u, v, h2, h6, h7.symm⟩)

end Sys2Proof.Machine
end

