-- ==== Sys2Proof/Laws/Commands.lean ====
section
/-! SUPPORT. What a host write, the host port and a step can do. -/

namespace Sys2Proof.Machine

open Sys2Proof

/-- Everything a host write can do: a refusal by the channel, a refusal by the level, or the entry written. -/
theorem hostWrite_eq (c v : Nat) (f : Entry → Entry) (s : State) :
    hostWrite c v f s =
      if c > 512 then raise .errChannel s
      else if v > 255 then raise .errValue s
      else .next ((s.setStore (s.store.write c (f (s.store.read c)))).respond .ok) := by
  unfold hostWrite checkOperands
  by_cases hc : c > channelCount
  · simp [hc]
  · by_cases hv : v > maxLevel
    · simp [hc, hv]
    · have hc' : c ≤ channelCount := Nat.le_of_not_gt hc
      simp [hc, hv, readEntry, writeEntry, hc']

/-- START's action: `Init` entered with the lock free. -/
theorem lockedAction_init (s : State) (h : s.state = .init) :
    lockedAction s = .next ((actInit (s.setLock true)).setLock false) := by
  simp [lockedAction, action, h]

/-- A step takes the first arrival. -/
theorem step_cons {s : State} {a : Input} {rest : List Input} (h : s.inputs = a :: rest) :
    step s = arrive a (s.setInputs rest) := by
  simp [step, fetch, h]

/-- Nothing arrives. -/
theorem step_nil {s : State} (h : s.inputs = []) : step s = .next s := by
  simp [step, fetch, h]

/-- The host port takes exactly the words that decode to a foreground operation. -/
theorem hostDecode_eq_some_iff {w : OpWord} {i : Instr} :
    hostDecode w = some i ↔ decode w = .ok i ∧ i.context = .foreground := by
  unfold hostDecode
  cases h : decode w with
  | error e => simp
  | ok j =>
    cases hj : j.context with
    | foreground =>
      simp only [hj, Option.some.injEq, Except.ok.injEq]
      exact ⟨fun he => ⟨he, he ▸ hj⟩, fun he => he.1⟩
    | interrupt =>
      simp only [hj, Except.ok.injEq, reduceCtorEq, false_iff, not_and]
      intro he hf
      rw [← he, hj] at hf
      cases hf

end Sys2Proof.Machine
end

