-- ==== Sys2Proof/Laws/Encoding.lean ====
section
/-! SUPPORT. The fields of a packed word are the fields it was packed from, and a word is its fields packed; both
through the word's value as a number. -/

namespace Sys2Proof

theorem toNat_append_eq {n m : Nat} (a : BitVec n) (b : BitVec m) : (a ++ b).toNat = a.toNat * 2 ^ m + b.toNat := by
  rw [BitVec.toNat_append, ← Nat.shiftLeft_add_eq_or_of_lt b.isLt, Nat.shiftLeft_eq]

/-- The value of a packed word. -/
theorem toNat_packWord (op : BitVec 4) (ch : BitVec 12) (val ms : BitVec 16) :
    (packWord op ch val ms).toNat = op.toNat * 2 ^ 44 + ch.toNat * 2 ^ 32 + val.toNat * 2 ^ 16 + ms.toNat := by
  have h : (packWord op ch val ms).toNat = (op ++ ch ++ val ++ ms).toNat := rfl
  rw [h, toNat_append_eq, toNat_append_eq, toNat_append_eq]
  ring

theorem opField_eq (w : OpWord) : opField w = w.toNat / 2 ^ 44 := by
  have := w.isLt
  simp only [opField, BitVec.extractLsb'_toNat, Nat.shiftRight_eq_div_pow]
  omega

theorem chField_eq (w : OpWord) : chField w = w.toNat / 2 ^ 32 % 2 ^ 12 := by
  simp only [chField, BitVec.extractLsb'_toNat, Nat.shiftRight_eq_div_pow]

theorem valField_eq (w : OpWord) : valField w = w.toNat / 2 ^ 16 % 2 ^ 16 := by
  simp only [valField, BitVec.extractLsb'_toNat, Nat.shiftRight_eq_div_pow]

theorem msField_eq (w : OpWord) : msField w = w.toNat % 2 ^ 16 := by
  simp only [msField, BitVec.extractLsb'_toNat, Nat.shiftRight_zero]

/-- Every field is below its width's limit. -/
theorem field_bounds (w : OpWord) :
    opField w < 2 ^ 4 ∧ chField w < 2 ^ 12 ∧ valField w < 2 ^ 16 ∧ msField w < 2 ^ 16 :=
  ⟨BitVec.isLt _, BitVec.isLt _, BitVec.isLt _, BitVec.isLt _⟩

variable (op : BitVec 4) (ch : BitVec 12) (val ms : BitVec 16)

@[simp] theorem opField_packWord : opField (packWord op ch val ms) = op.toNat := by
  have := op.isLt; have := ch.isLt; have := val.isLt; have := ms.isLt
  rw [opField_eq, toNat_packWord]; omega

@[simp] theorem chField_packWord : chField (packWord op ch val ms) = ch.toNat := by
  have := op.isLt; have := ch.isLt; have := val.isLt; have := ms.isLt
  rw [chField_eq, toNat_packWord]; omega

@[simp] theorem valField_packWord : valField (packWord op ch val ms) = val.toNat := by
  have := op.isLt; have := ch.isLt; have := val.isLt; have := ms.isLt
  rw [valField_eq, toNat_packWord]; omega

@[simp] theorem msField_packWord : msField (packWord op ch val ms) = ms.toNat := by
  have := op.isLt; have := ch.isLt; have := val.isLt; have := ms.isLt
  rw [msField_eq, toNat_packWord]; omega

/-- A word is its four fields packed. -/
theorem packWord_fields (w : OpWord) :
    packWord (BitVec.ofNat 4 (opField w)) (BitVec.ofNat 12 (chField w)) (BitVec.ofNat 16 (valField w))
      (BitVec.ofNat 16 (msField w)) = w := by
  apply BitVec.eq_of_toNat_eq
  have := w.isLt
  rw [toNat_packWord, opField_eq, chField_eq, valField_eq, msField_eq]
  simp only [BitVec.toNat_ofNat]
  omega

/-- Bit 47 of a packed word is the top bit of its `op` field. -/
theorem packWord_bit47 : (packWord op ch val ms)[47] = op[3] := by
  have := op.isLt; have := ch.isLt; have := val.isLt; have := ms.isLt
  rw [BitVec.getElem_eq_testBit_toNat, BitVec.getElem_eq_testBit_toNat, toNat_packWord, Nat.testBit_eq_decide_div_mod_eq,
    Nat.testBit_eq_decide_div_mod_eq]
  congr 2
  omega

end Sys2Proof
end

