-- ==== Sys2Proof/Laws/Store.lean ====
section
/-! SUPPORT. The laws of the Channel Store: a read after a write, and that every operation keeps the canonical form. -/

namespace Sys2Proof

theorem Memory.read_erase_same (m : Memory) (i : Nat) : (m.erase i).read i = Entry.zero := by
  induction m with
  | nil => rfl
  | cons p rest ih =>
    obtain ⟨k, e⟩ := p
    by_cases h : k = i <;> simp [Memory.erase, Memory.read, h, ih]

theorem Memory.read_erase_other (m : Memory) {i j : Nat} (h : j ≠ i) : (m.erase i).read j = m.read j := by
  induction m with
  | nil => rfl
  | cons p rest ih =>
    obtain ⟨k, e⟩ := p
    by_cases hk : k = i
    · subst hk
      simp [Memory.erase, Memory.read, ih, h.symm]
    · simp [Memory.erase, Memory.read, hk, ih]

theorem Memory.read_insert_other (m : Memory) (e : Entry) {i j : Nat} (h : j ≠ i) :
    (m.insert i e).read j = m.read j := by
  induction m with
  | nil => simp [Memory.insert, Memory.read, h.symm]
  | cons p rest ih =>
    obtain ⟨k, x⟩ := p
    by_cases hk : i < k <;> simp [Memory.insert, Memory.read, hk, h.symm, ih]

theorem Memory.read_insert_erase (m : Memory) (i : Nat) (e : Entry) : ((m.erase i).insert i e).read i = e := by
  induction m with
  | nil => simp [Memory.erase, Memory.insert, Memory.read]
  | cons p rest ih =>
    obtain ⟨k, x⟩ := p
    by_cases hk : k = i
    · simpa [Memory.erase, hk] using ih
    · by_cases hlt : i < k <;> simp [Memory.erase, Memory.insert, Memory.read, hk, hlt, ih]

/-- A read after a write to the same index gives the entry written. -/
@[simp] theorem Memory.read_write_same (m : Memory) (i : Nat) (e : Entry) : (m.write i e).read i = e := by
  unfold Memory.write
  split
  · next h => rw [Memory.read_erase_same, h]
  · exact Memory.read_insert_erase m i e

/-- A write leaves every other index alone. -/
theorem Memory.read_write_other (m : Memory) (e : Entry) {i j : Nat} (h : j ≠ i) :
    (m.write i e).read j = m.read j := by
  unfold Memory.write
  split
  · exact Memory.read_erase_other m h
  · rw [Memory.read_insert_other _ _ h, Memory.read_erase_other m h]

theorem Memory.wfFrom_mono {m : Memory} {lo lo' : Nat} (h : m.wfFrom lo = true) (hle : lo' ≤ lo) :
    m.wfFrom lo' = true := by
  cases m with
  | nil => rfl
  | cons p rest =>
    obtain ⟨k, e⟩ := p
    simp only [Memory.wfFrom, Bool.and_eq_true, decide_eq_true_eq] at h ⊢
    exact ⟨⟨⟨by omega, h.1.1.2⟩, h.1.2⟩, h.2⟩

theorem Memory.wfFrom_erase {m : Memory} {lo : Nat} (i : Nat) (h : m.wfFrom lo = true) :
    (m.erase i).wfFrom lo = true := by
  induction m generalizing lo with
  | nil => rfl
  | cons p rest ih =>
    obtain ⟨k, e⟩ := p
    simp only [Memory.wfFrom, Bool.and_eq_true, decide_eq_true_eq] at h
    by_cases hk : k = i
    · simp only [Memory.erase, hk, if_true]
      exact ih (Memory.wfFrom_mono h.2 (by omega))
    · simp only [Memory.erase, hk, if_false, Memory.wfFrom, Bool.and_eq_true, decide_eq_true_eq]
      exact ⟨h.1, ih h.2⟩

/-- An insertion keeps the form when the index is not listed, as after an erasure. -/
theorem Memory.wfFrom_insert_erase {m : Memory} {lo i : Nat} {e : Entry} (h : m.wfFrom lo = true) (hlo : lo ≤ i)
    (hi : i ≤ channelCount) (he : e ≠ Entry.zero) : ((m.erase i).insert i e).wfFrom lo = true := by
  induction m generalizing lo with
  | nil => simp [Memory.erase, Memory.insert, Memory.wfFrom, hlo, hi, he]
  | cons p rest ih =>
    obtain ⟨k, x⟩ := p
    simp only [Memory.wfFrom, Bool.and_eq_true, decide_eq_true_eq] at h
    obtain ⟨⟨⟨h1, h2⟩, h3⟩, h4⟩ := h
    by_cases hk : k = i
    · simp only [Memory.erase, hk, if_true]
      exact ih (Memory.wfFrom_mono h4 (by omega)) hlo
    · simp only [Memory.erase, hk, if_false, Memory.insert]
      split
      · next hlt =>
        simp only [Memory.wfFrom, Bool.and_eq_true, decide_eq_true_eq]
        exact ⟨⟨⟨hlo, hi⟩, he⟩, ⟨⟨by omega, h2⟩, h3⟩, Memory.wfFrom_erase i h4⟩
      · simp only [Memory.wfFrom, Bool.and_eq_true, decide_eq_true_eq]
        exact ⟨⟨⟨h1, h2⟩, h3⟩, ih h4 (by omega)⟩

/-- A write keeps the canonical form. -/
theorem Memory.wf_write {m : Memory} {i : Nat} (e : Entry) (h : m.wf = true) (hi : i ≤ channelCount) :
    (m.write i e).wf = true := by
  unfold Memory.write
  split
  · exact Memory.wfFrom_erase i h
  · next he => exact Memory.wfFrom_insert_erase h (Nat.zero_le i) hi he

theorem Memory.read_below {m : Memory} {lo i : Nat} (h : m.wfFrom lo = true) (hi : i < lo) :
    m.read i = Entry.zero := by
  induction m generalizing lo with
  | nil => rfl
  | cons p rest ih =>
    obtain ⟨k, e⟩ := p
    simp only [Memory.wfFrom, Bool.and_eq_true, decide_eq_true_eq] at h
    have hk : k ≠ i := by omega
    simp only [Memory.read, hk, if_false]
    exact ih h.2 (by omega)

theorem Memory.ext_from {m n : Memory} {lo : Nat} (hm : m.wfFrom lo = true) (hn : n.wfFrom lo = true)
    (h : ∀ i, m.read i = n.read i) : m = n := by
  induction m generalizing n lo with
  | nil =>
    cases n with
    | nil => rfl
    | cons q rest =>
      obtain ⟨k, e⟩ := q
      simp only [Memory.wfFrom, Bool.and_eq_true, decide_eq_true_eq] at hn
      have := h k
      simp [Memory.read] at this
      exact absurd this.symm hn.1.2
  | cons p rest ih =>
    obtain ⟨k, e⟩ := p
    simp only [Memory.wfFrom, Bool.and_eq_true, decide_eq_true_eq] at hm
    obtain ⟨⟨⟨hm1, hm2⟩, hm3⟩, hm4⟩ := hm
    cases n with
    | nil =>
      have := h k
      simp [Memory.read] at this
      exact absurd this hm3
    | cons q rest' =>
      obtain ⟨k', e'⟩ := q
      simp only [Memory.wfFrom, Bool.and_eq_true, decide_eq_true_eq] at hn
      obtain ⟨⟨⟨hn1, hn2⟩, hn3⟩, hn4⟩ := hn
      have hkk : k = k' := by
        rcases Nat.lt_trichotomy k k' with hlt | heq | hgt
        · have hk := h k
          have : k' ≠ k := by omega
          simp only [Memory.read, if_true, this, if_false] at hk
          rw [Memory.read_below hn4 (by omega)] at hk
          exact absurd hk hm3
        · exact heq
        · have hk := h k'
          have : k ≠ k' := by omega
          simp only [Memory.read, if_true, this, if_false] at hk
          rw [Memory.read_below hm4 (by omega)] at hk
          exact absurd hk.symm hn3
      subst hkk
      have he : e = e' := by simpa [Memory.read] using h k
      subst he
      have hr : rest = rest' := ih hm4 hn4 fun i => by
        by_cases hi : k = i
        · subst hi
          rw [Memory.read_below hm4 (by omega), Memory.read_below hn4 (by omega)]
        · simpa [Memory.read, hi] using h i
      rw [hr]

/-- Stores in canonical form that read alike are equal. -/
theorem Memory.ext_of_wf {m n : Memory} (hm : m.wf = true) (hn : n.wf = true) (h : ∀ i, m.read i = n.read i) :
    m = n := Memory.ext_from hm hn h

/-- The reset state's store has the canonical form. -/
theorem Memory.wf_reset : Machine.State.reset.store.wf = true := rfl

theorem Memory.levelsOk_erase {m : Memory} (i : Nat) (h : m.levelsOk = true) : (m.erase i).levelsOk = true := by
  induction m with
  | nil => rfl
  | cons p rest ih =>
    obtain ⟨k, e⟩ := p
    simp only [Memory.levelsOk, List.all_cons, Bool.and_eq_true] at h ih ⊢
    by_cases hk : k = i
    · simpa [Memory.erase, hk] using ih h.2
    · simp only [Memory.erase, hk, if_false, List.all_cons, Bool.and_eq_true]
      exact ⟨h.1, ih h.2⟩

theorem Memory.levelsOk_insert {m : Memory} {i : Nat} {e : Entry} (h : m.levelsOk = true)
    (he : e.cur.toNat ≤ maxFixed) : (m.insert i e).levelsOk = true := by
  induction m with
  | nil => simp [Memory.insert, Memory.levelsOk, he]
  | cons p rest ih =>
    obtain ⟨k, x⟩ := p
    simp only [Memory.levelsOk, List.all_cons, Bool.and_eq_true] at h ih
    unfold Memory.insert
    split <;> simp [Memory.levelsOk, List.all_cons, h.1, h.2, he, ih h.2]

/-- A write of a legal level keeps the levels of a store legal (10_state.md R34 (a)). -/
theorem Memory.levelsOk_write {m : Memory} {i : Nat} {e : Entry} (h : m.levelsOk = true)
    (he : e.cur.toNat ≤ maxFixed) : (m.write i e).levelsOk = true := by
  unfold Memory.write
  split
  · exact Memory.levelsOk_erase i h
  · exact Memory.levelsOk_insert (Memory.levelsOk_erase i h) he

/-- The levels of a store whose form is legal, read by index. -/
theorem Memory.read_level {m : Memory} (h : m.levelsOk = true) (i : Nat) : (m.read i).cur.toNat ≤ maxFixed := by
  induction m with
  | nil => simp [Memory.read, Entry.zero]
  | cons p rest ih =>
    obtain ⟨k, e⟩ := p
    simp only [Memory.levelsOk, List.all_cons, Bool.and_eq_true, decide_eq_true_eq] at h
    unfold Memory.read
    split
    · exact h.1
    · exact ih (by simpa [Memory.levelsOk] using h.2)

end Sys2Proof
end

