-- ==== Sys2Proof/Laws/Fade.lean ====
section
/-! SUPPORT. The laws of the fade pipeline's operations: `tdiv` is the library's truncating division, an unlisted
entry is a fixed point of the sweep, and what a sweep leaves at every index. -/

namespace Sys2Proof.Machine

open Sys2Proof

/-- `tdiv` is division rounded toward zero. -/
theorem tdiv_eq (a : Int) (b : Nat) : tdiv a b = Int.tdiv a b := by
  unfold tdiv
  rcases Int.natAbs_eq a with h | h
  · rw [h]
    rcases Nat.eq_zero_or_pos a.natAbs with h0 | h0
    · simp [h0]
    · rw [Int.sign_eq_one_of_pos (by omega), one_mul, Int.natAbs_natCast]
      rfl
  · rw [h]
    rcases Nat.eq_zero_or_pos a.natAbs with h0 | h0
    · simp [h0]
    · rw [Int.sign_eq_neg_one_of_neg (by omega), Int.natAbs_neg, Int.natAbs_natCast, Int.neg_tdiv, neg_one_mul]
      rfl

/-- The division truncates: the quotient's magnitude is the quotient of the magnitudes (42_fade_pipeline.md R153). -/
theorem natAbs_tdiv (a : Int) (b : Nat) : (tdiv a b).natAbs = a.natAbs / b := by
  rw [tdiv_eq, Int.natAbs_tdiv]; rfl

/-- The clamp of a value in range is that value. -/
theorem clamp_of_mem {x lo hi : Int} (h1 : lo ≤ x) (h2 : x ≤ hi) : clamp x lo hi = x := by
  unfold clamp; split
  · omega
  · split <;> omega

theorem clamp_range {x lo hi : Int} (h : lo ≤ hi) : lo ≤ clamp x lo hi ∧ clamp x lo hi ≤ hi := by
  unfold clamp; split
  · omega
  · split <;> omega

/-- The default entry stays as it is in every sweep. -/
@[simp] theorem fadeEntry_zero (d : Millis) : fadeEntry Entry.zero d = Entry.zero := by
  simp [fadeEntry, Entry.zero, Entry.target]

/-- The sweep never writes `tgt` (R152). -/
@[simp] theorem fadeEntry_tgt (e : Entry) (d : Millis) : (fadeEntry e d).tgt = e.tgt := by
  unfold fadeEntry; split <;> rfl

/-- What a sweep leaves at an index: the entries are independent (R150). -/
theorem read_fadeSweep (m : Memory) (d : Millis) (i : Nat) :
    (fadeSweep m d).read i = if i ≤ channelCount then fadeEntry (m.read i) d else m.read i := by
  induction m with
  | nil => simp [fadeSweep, Memory.read]
  | cons p rest ih =>
    obtain ⟨k, e⟩ := p
    by_cases hi : i = k
    · subst hi; simp [fadeSweep, Memory.read]
    · rw [fadeSweep, Memory.read_write_other _ _ hi, ih]
      simp [Memory.read, Ne.symm hi]

/-- What the first `n` turns of the loop leave at an index. -/
theorem read_sweepLoop (n : Nat) (m : Memory) (d : Millis) (i : Nat) :
    (sweepLoop n m d).read i = if i < n then fadeEntry (m.read i) d else m.read i := by
  induction n with
  | zero => simp [sweepLoop]
  | succ k ih =>
    rw [sweepLoop]
    by_cases hi : i = k
    · subst hi
      rw [Memory.read_write_same, ih]
      simp
    · rw [Memory.read_write_other _ _ hi, ih]
      have : i < k + 1 ↔ i < k := by omega
      simp only [this]

theorem wf_fadeSweep_from {m : Memory} {lo : Nat} (d : Millis) (h : m.wfFrom lo = true) : (fadeSweep m d).wf = true := by
  induction m generalizing lo with
  | nil => rfl
  | cons p rest ih =>
    obtain ⟨k, e⟩ := p
    simp only [Memory.wfFrom, Bool.and_eq_true, decide_eq_true_eq] at h
    exact Memory.wf_write _ (ih h.2) h.1.1.2

/-- The sweep keeps the canonical form of the store. -/
theorem wf_fadeSweep {m : Memory} (d : Millis) (h : m.wf = true) : (fadeSweep m d).wf = true :=
  wf_fadeSweep_from d h

end Sys2Proof.Machine
end

