-- ==== Sys2Proof/Laws/PerInstr.lean ====
section
/-! SUPPORT. The per-instruction family `ClassBit`: bit 47 of an operation's word is its class (30_encoding.md R74:
"Bit 47 separates the classes: 0 for a host command, 1 for a line event"), whatever the operands. -/

namespace Sys2Proof.Laws

open Sys2Proof

/-- Bit 47 of the instruction's word is 0 for a host command and 1 for a line event. -/
def ClassBit.Statement (i : Instr) : Prop := (encode i)[47] = decide (i.context = .interrupt)

theorem ClassBit.start : ClassBit.Statement .start := by
  rw [ClassBit.Statement, encode, packWord_bit47]; rfl

theorem ClassBit.stop : ClassBit.Statement .stop := by
  rw [ClassBit.Statement, encode, packWord_bit47]; rfl

theorem ClassBit.set (c v : Nat) : ClassBit.Statement (.set c v) := by
  rw [ClassBit.Statement, encode, packWord_bit47]; rfl

theorem ClassBit.fade (c v t : Nat) : ClassBit.Statement (.fade c v t) := by
  rw [ClassBit.Statement, encode, packWord_bit47]; rfl

theorem ClassBit.evTimer : ClassBit.Statement .evTimer := by
  rw [ClassBit.Statement, encode, packWord_bit47]; rfl

theorem ClassBit.evByte : ClassBit.Statement .evByte := by
  rw [ClassBit.Statement, encode, packWord_bit47]; rfl

end Sys2Proof.Laws
end

