-- ==== Sys2Proof/Tests/Slice0.lean ====
section
/-! SUPPORT. Named checks. The expected values are those of spec/95_test_vectors.md (the vector's name stands in the
comment) or worked by hand from the rule that is named. The theorems `witness_<Obligation>` show that the hypotheses of
an obligation can all be met at once. -/

namespace Sys2Proof.Tests

open Sys2Proof Sys2Proof.Machine

/-! ### Small states -/

/-- The test configuration T0 of 95_test_vectors.md. -/
def cfgT0 : Config :=
  { txMode := .uart, stopBits := .two, settleUs := 1000, mbbUs := 10000, breakUs := 92, mabUs := 12, markUs := 0,
    deltaMs := 33, initScene := [] }

/-- T0 with MARK. -/
def cfgMark : Config := { cfgT0 with markUs := 8 }

/-- T0 with BITBANG. -/
def cfgBang : Config := { cfgT0 with txMode := .bitbang }

/-- T0 with BITBANG and MARK. -/
def cfgBangMark : Config := { cfgBang with markUs := 8 }

/-- The reset state under a configuration. -/
def at0 (c : Config) : State := { State.reset with cfg := c, store := c.initScene }

/-- A position of the sequencer waiting for the timer, armed for `d`, the line at mark. -/
def armed (c : Config) (p : FsmState) (slot : BitVec 10) (bit : BitVec 4) (d : Micros) : State :=
  { at0 c with state := p, slot := slot, bit := bit, tmrArmed := true, tmrDur := d, line := some .mark }

/-- A position of the sequencer waiting for the UART, the line at mark. -/
def sending (c : Config) (p : FsmState) (slot : BitVec 10) : State :=
  { at0 c with state := p, slot := slot, uartBusy := true, line := some .mark }

/-- A state with one listed entry. -/
def holding (s : State) (i : Nat) (e : Entry) : State := { s with store := [(i, e)] }

/-- A state with arrivals. -/
def given (s : State) (l : List Input) : State := { s with inputs := l }

/-- What a look at the next state shows, `none` when there is none. -/
def look {α : Type} (f : State → α) (o : Result) : Option α :=
  match o with
  | .next s => some (f s)
  | .fault _ => none
  | .refused _ => none

/-- The sequencer's position and its three flags: timer armed, UART busy, stop requested. -/
structure Flags where
  state : FsmState
  slot : Nat
  bit : Nat
  tmrArmed : Bool
  uartBusy : Bool
  stopReq : Bool
  deriving DecidableEq, Repr

def flags (s : State) : Flags := ⟨s.state, s.slot.toNat, s.bit.toNat, s.tmrArmed, s.uartBusy, s.stopReq⟩

/-! ### WellFormed refuses an operand that does not fit its field -/

theorem test_wf_set_ch : wellFormed (.set 4096 0) = false := by decide
theorem test_wf_set_val : wellFormed (.set 0 65536) = false := by decide
theorem test_wf_fade_ch : wellFormed (.fade 4096 0 0) = false := by decide
theorem test_wf_fade_val : wellFormed (.fade 0 65536 0) = false := by decide
theorem test_wf_fade_ms : wellFormed (.fade 0 0 65536) = false := by decide
theorem test_wf_maxima : wellFormed (.fade 4095 65535 65535) = true := by decide

/-! ### Words written out from the encoding table, E1 to E18 -/

theorem test_decode_start : decode 0x100000000000 = .ok .start := by decide
theorem test_decode_stop : decode 0x200000000000 = .ok .stop := by decide
theorem test_decode_set : decode 0x300A00C80000 = .ok (.set 10 200) := by decide
theorem test_decode_set_bits :
    decode 0b0011000000001010000000001100100000000000000000000 = .error .illegalOp ∧
    decode 0b001100000000101000000000110010000000000000000000 = .ok (.set 10 200) := by decide
theorem test_decode_fade : decode 0x400100C803E8 = .ok (.fade 1 200 1000) := by decide
theorem test_decode_fade_bits :
    decode 0b010000000000000100000000110010000000001111101000 = .ok (.fade 1 200 1000) := by decide
theorem test_decode_fade_maxima : decode 0x4FFFFFFFFFFF = .ok (.fade 4095 65535 65535) := by decide
theorem test_decode_evTimer : decode 0x800000000000 = .ok .evTimer := by decide
theorem test_decode_evByte : decode 0x900000000000 = .ok .evByte := by decide
theorem test_decode_reserved :
    [0x0, 0x5, 0x6, 0x7, 0xA, 0xB, 0xC, 0xD, 0xE, 0xF].all
      (fun op => decide (decode (BitVec.ofNat 48 (op * 2 ^ 44)) = .error .illegalOp)) = true := by decide
theorem test_decode_unused_fields :
    decode 0x100000000001 = .error .unusedFieldNonZero ∧ decode 0x200100000000 = .error .unusedFieldNonZero ∧
    decode 0x300100FF0001 = .error .unusedFieldNonZero ∧ decode 0x800000010000 = .error .unusedFieldNonZero ∧
    decode 0x900100000000 = .error .unusedFieldNonZero := by decide
theorem test_table_word :
    decodeTableWord 48 0x300A00C80000 = some (.set 10 200) ∧ decodeTableWord 48 0x500000000000 = none ∧
    decodeTableWord 64 0x1000100000000000 = none := by decide

/-- Each table word runs as the first step after reset. -/
theorem test_fetch_word :
    look (·.state) (step (State.reset.withFetchWord 48 0x100000000000)) = some .init ∧
    look (·.resps) (step (State.reset.withFetchWord 48 0x200000000000)) = some [.ok] ∧
    look (·.store) (step (State.reset.withFetchWord 48 0x300100FF0000)) =
      some [(1, { cur := 65280, tgt := 255, rem := 0 })] ∧
    look (·.store) (step (State.reset.withFetchWord 48 0x400100C803E8)) =
      some [(1, { cur := 0, tgt := 200, rem := 1000 })] ∧
    look flags (step (State.reset.withFetchWord 48 0x800000000000)) = some ⟨.idle, 0, 0, false, false, false⟩ ∧
    look flags (step (State.reset.withFetchWord 48 0x900000000000)) = some ⟨.idle, 0, 0, false, false, false⟩ := by
  decide

/-! ### Host commands -/

/-- H1. -/
theorem test_start_from_idle :
    look (fun s => (flags s, s.line, s.out, s.resps)) (exec .start (at0 cfgT0)) =
      some (⟨.init, 0, 0, true, false, false⟩, some .mark, [.lineInit, .arm 1000], [.ok]) := by decide

/-- H16. -/
theorem test_start_withdraws_stop :
    look (fun s => (flags s, s.out)) (exec .start { armed cfgT0 .lineBreak 0 0 92 with stopReq := true }) =
      some (⟨.lineBreak, 0, 0, true, false, false⟩, []) := by decide

/-- H2. -/
theorem test_stop_in_idle : look flags (exec .stop (at0 cfgT0)) = some ⟨.idle, 0, 0, false, false, false⟩ := by decide

/-- H15. -/
theorem test_stop_running :
    look flags (exec .stop (armed cfgT0 .lineBreak 0 0 92)) = some ⟨.lineBreak, 0, 0, true, false, true⟩ := by decide

/-- H11. -/
theorem test_set_keeps_rem :
    look (·.store) (exec (.set 5 7) (holding (at0 cfgT0) 5 { cur := 2560, tgt := 100, rem := 900 })) =
      some [(5, { cur := 1792, tgt := 7, rem := 900 })] := by decide

/-- H7, H8, E16: the channel is checked first. -/
theorem test_set_refused :
    look (fun s => (s.resps, s.store)) (exec (.set 513 0) (at0 cfgT0)) = some ([.errChannel], []) ∧
    look (fun s => (s.resps, s.store)) (exec (.set 1 256) (at0 cfgT0)) = some ([.errValue], []) ∧
    look (·.resps) (exec (.set 513 256) (at0 cfgT0)) = some [.errChannel] := by decide

/-- H13. -/
theorem test_fade_keeps_cur :
    look (·.store) (exec (.fade 5 0 150) (holding (at0 cfgT0) 5 { cur := 1792, tgt := 7, rem := 800 })) =
      some [(5, { cur := 1792, tgt := 0, rem := 150 })] := by decide

/-- E17, E18, E19. -/
theorem test_fade_refused :
    look (·.resps) (exec (.fade 512 256 1000) (at0 cfgT0)) = some [.errValue] ∧
    look (·.resps) (exec (.fade 4095 0 0) (at0 cfgT0)) = some [.errChannel] ∧
    look (·.resps) (exec (.fade 0 0 65535) (at0 cfgT0)) = some [.ok] := by decide

/-- E6, E12, E13, E20: refused at the host port. -/
theorem test_port_refuses :
    [0x000000000000, 0x800000000000, 0x900000000000, 0x300101000001].all (fun w =>
      decide (look (fun s => (flags s, s.resps)) (step (given (at0 cfgT0) [.cmd (BitVec.ofNat 48 w)])) =
        some (⟨.idle, 0, 0, false, false, false⟩, [.errIllegal]))) = true := by decide

/-! ### Events -/

/-- Q4. -/
theorem test_evTimer_start_code :
    look (fun s => (flags s, s.txbyte.toNat, s.out, s.vtimeUs)) (exec .evTimer (armed cfgT0 .markAfterBreak 0 0 12)) =
      some (⟨.txStartCode, 0, 0, false, true, false⟩, 0, [.send 0], 12) := by decide

/-- B2, its first data bit: byte 0xA5. -/
theorem test_evTimer_data_bit :
    look (fun s => (flags s, s.line, s.out)) (exec .evTimer { armed cfgBang .txByte 1 0 4 with txbyte := 0xA5 }) =
      some (⟨.txByte, 1, 1, true, false, false⟩, some .mark, [.line .mark, .arm 4]) := by decide

/-- Q5. -/
theorem test_evByte_next_byte :
    look (fun s => (flags s, s.txbyte.toNat, s.out, s.vtimeUs))
        (exec .evByte (holding (sending cfgT0 .txStartCode 0) 1 { cur := 0xFF00, tgt := 255, rem := 0 })) =
      some (⟨.txByte, 1, 0, false, true, false⟩, 255, [.send 255], 44) := by decide

/-- Q9 with F2: the last byte sweeps the store and starts the next frame. -/
theorem test_evByte_last_byte :
    look (fun s => (flags s, s.store, s.out))
        (exec .evByte (holding (sending cfgT0 .txByte 512) 7 { cur := 0, tgt := 255, rem := 1000 })) =
      some (⟨.markBeforeBreak, 0, 0, true, false, false⟩, [(7, { cur := 2154, tgt := 255, rem := 967 })],
        [.line .mark, .arm 10000]) := by decide

/-! ### The fade pipeline -/

/-- F6: rounding toward zero on the way down. -/
theorem test_fade_down :
    fadeEntry { cur := 51328, tgt := 10, rem := 250 } 100 = { cur := 31821, tgt := 10, rem := 150 } := by decide

/-- F10: a floor division would give 2683. -/
theorem test_fade_truncates :
    fadeEntry { cur := 2688, tgt := 10, rem := 1000 } 33 = { cur := 2684, tgt := 10, rem := 967 } := by decide

/-- F14: the largest product. -/
theorem test_fade_largest_product :
    fadeEntry { cur := 65280, tgt := 0, rem := 65535 } 65534 = { cur := 1, tgt := 0, rem := 1 } := by decide

/-- F20: the clamp. -/
theorem test_fade_clamps :
    fadeEntry { cur := 65535, tgt := 255, rem := 500 } 100 = { cur := 65280, tgt := 255, rem := 400 } := by decide

/-! ### Witnesses: the hypotheses of each obligation that has any, met together -/

/-- A word presented at the host port of the reset state. -/
abbrev atPort (w : OpWord) : State := given (at0 cfgT0) [.cmd w]

/-- An event pulse arriving. -/
abbrev onEvent (e : Event) (s : State) : State := given s [.event e]

theorem witness_WorkedEncodingsAndRefusals :
    (atPort 0x320100000000).inputs = .cmd 0x320100000000 :: [] ∧
    (atPort 0x300101000000).inputs = .cmd 0x300101000000 :: [] := by decide

theorem witness_DecodeOfEncodeIsIdentity :
    WellFormed .start ∧ WellFormed .stop ∧ WellFormed .evTimer ∧ WellFormed .evByte ∧ WellFormed (.set 0 0) ∧
    WellFormed (.set 4095 65535) ∧ WellFormed (.fade 0 0 0) ∧ WellFormed (.fade 4095 65535 65535) := by
  simp only [WellFormed]; decide

theorem witness_EncodeOfDecodeIsIdentity :
    decode 0x3FFFFFFF0000 = .ok (.set 4095 65535) ∧ decode 0x400000000000 = .ok (.fade 0 0 0) := by decide

theorem witness_DecoderAgreesWithOpcodeTable :
    opcodeTable.length = 6 ∧ ⟨"SET", 0x300000000000, 0xF0000000FFFF⟩ ∈ opcodeTable := by decide

theorem witness_CodesAreThoseOfTheTables :
    FsmState.code (.reserved 5) = 15 ∧ FsmState.code (.reserved 5) = FsmState.code (.reserved 5) := by decide

theorem witness_StepRunsTheDecodedInstruction :
    (atPort 0x320000FF0000).inputs = .cmd 0x320000FF0000 :: [] ∧ decode 0x320000FF0000 = .ok (.set 512 255) ∧
    (Instr.set 512 255).context = .foreground ∧
    (onEvent .timerExpired (armed cfgT0 .init 0 0 1000)).inputs = .event .timerExpired :: [] ∧
    (onEvent .byteTransmitted (sending cfgT0 .txByte 1)).inputs = .event .byteTransmitted :: [] ∧
    WellFormed (.fade 4095 65535 65535) := by
  simp only [WellFormed]; decide

theorem witness_NothingArrivesNothingChanges : (armed cfgT0 .init 0 0 1000).inputs = [] := by decide

/-- One word for each branch of the checks, at their boundaries: `op` 0 and 8, a START with `ms` 1, a SET with `ms` 1,
channels 512 and 513, levels 255 and 256. -/
theorem witness_HostWordCheckingOrder :
    [(0x000000000000, Resp.errIllegal), (0x800000000000, .errIllegal), (0x100000000001, .errIllegal),
      (0x300101000001, .errIllegal), (0x320101000000, .errChannel), (0x420100000000, .errChannel),
      (0x320001000000, .errValue), (0x4200010003E8, .errValue), (0x320000FF0000, .ok), (0x420000FFFFFF, .ok),
      (0x100000000000, .ok), (0x200000000000, .ok)].all (fun p =>
        decide ((atPort (BitVec.ofNat 48 p.1)).inputs = .cmd (BitVec.ofNat 48 p.1) :: [] ∧
          look (·.resps) (step (atPort (BitVec.ofNat 48 p.1))) = some [p.2])) = true := by decide

theorem witness_OneAnswerForEveryHostWord : (atPort 0x500000000000).inputs = .cmd 0x500000000000 :: [] := by decide

theorem witness_HostCannotInjectEvents :
    (atPort 0x900000000000).inputs = .cmd 0x900000000000 :: [] ∧ (0x900000000000 : OpWord)[47] = true ∧
    (∃ t, exec .evTimer (armed cfgT0 .init 0 0 1000) = .next t) ∧
    (∃ t, exec .evByte (sending cfgT0 .txByte 512) = .next t) :=
  ⟨by decide, by decide, ⟨_, rfl⟩, ⟨_, rfl⟩⟩

theorem witness_ResetStepWritesEveryField :
    (given (sending cfgT0 .txByte 300) [.rst]).inputs = .rst :: [] := by decide

theorem witness_StartEffect :
    (at0 cfgT0).state = .idle ∧ (armed cfgT0 .init 0 0 1000).state ≠ .idle := by decide

theorem witness_StopEffect :
    (at0 cfgT0).state = .idle ∧ (sending cfgT0 .txByte 512).state ≠ .idle := by decide

theorem witness_SetEffect :
    ∃ c v j : Nat, c ≤ 512 ∧ v ≤ 255 ∧ c = 512 ∧ v = 255 ∧ j ≠ c := ⟨512, 255, 0, by decide⟩

theorem witness_FadeEffect :
    ∃ c v t j : Nat, c ≤ 512 ∧ v ≤ 255 ∧ t < 2 ^ 16 ∧ c = 512 ∧ v = 255 ∧ t = 65535 ∧ j ≠ c :=
  ⟨512, 255, 65535, 511, by decide⟩

theorem witness_OutOfRangeOperandsAreRefused :
    (∃ c : Nat, c = 513 ∧ c > 512) ∧ ∃ c v : Nat, c = 512 ∧ v = 256 ∧ c ≤ 512 ∧ v > 255 :=
  ⟨⟨513, by decide⟩, ⟨512, 256, by decide⟩⟩

theorem witness_SetIsIdempotent :
    ∃ s t u, s.store.wf = true ∧ exec (.set 10 200) s = .next t ∧ exec (.set 10 200) t = .next u :=
  ⟨holding (at0 cfgT0) 10 { cur := 1, tgt := 2, rem := 3 }, _, _, by decide, rfl, rfl⟩

/-- Both sides of the clauses: START from `Idle` and START from a running state, a refused and a performed write. -/
theorem witness_HostCommandFrame :
    (∃ t, Instr.context .start = .foreground ∧ exec .start (at0 cfgT0) = .next t) ∧
    (∃ t, exec .start (armed cfgT0 .lineBreak 0 0 92) = .next t ∧ (armed cfgT0 .lineBreak 0 0 92).state ≠ .idle) ∧
    (∃ t, exec .stop (armed cfgT0 .lineBreak 0 0 92) = .next t) ∧
    (∃ t, exec (.set 512 255) (at0 cfgT0) = .next t) ∧ (∃ t, exec (.set 513 0) (at0 cfgT0) = .next t) ∧
    (∃ t, exec (.fade 0 0 0) (at0 cfgT0) = .next t) :=
  ⟨⟨_, by decide, rfl⟩, ⟨_, rfl, by decide⟩, ⟨_, rfl⟩, ⟨_, rfl⟩, ⟨_, rfl⟩, ⟨_, rfl⟩⟩

theorem witness_SettleDelayElapses :
    (armed cfgT0 .init 0 0 1000).lock = false ∧ (armed cfgT0 .init 0 0 1000).state = .init ∧
    (armed cfgT0 .init 0 0 1000).stopReq = false ∧
    ({ armed cfgT0 .init 0 0 1000 with stopReq := true } : State).stopReq = true := by decide

theorem witness_BreakBegins :
    (armed cfgT0 .markBeforeBreak 0 0 10000).lock = false ∧
    (armed cfgBang .markBeforeBreak 0 0 10000).state = .markBeforeBreak := by decide

theorem witness_BreakEnds :
    (armed cfgT0 .lineBreak 0 0 92).lock = false ∧ (armed cfgT0 .lineBreak 0 0 92).state = .lineBreak := by decide

/-- The three entries, at slots 0, 1 and 512, in both modes. -/
theorem witness_MarkElapsesAndByteStarts :
    ((armed cfgT0 .markAfterBreak 0 0 12).lock = false ∧ (armed cfgT0 .markAfterBreak 0 0 12).slot.toNat ≤ 512 ∧
      (armed cfgT0 .markAfterBreak 0 0 12).state = .markAfterBreak ∧
      (armed cfgT0 .markAfterBreak 0 0 12).cfg.txMode = .uart) ∧
    ((armed cfgBangMark .txStartMark 1 0 8).slot.toNat ≤ 512 ∧
      (armed cfgBangMark .txStartMark 1 0 8).state = .txStartMark ∧
      (armed cfgBangMark .txStartMark 1 0 8).cfg.txMode = .bitbang ∧
      (armed cfgBangMark .txStartMark 1 0 8).bit.toNat = 0) ∧
    ((armed cfgBangMark .txMark 512 0 8).slot.toNat ≤ 512 ∧
      (armed cfgBangMark .txMark 512 0 8).state = .txMark) := by decide

/-- Bits 0, 7, 8 and 9 of a byte: the first and last data bit and the two stop bits follow. -/
theorem witness_NextBitIsDriven :
    [0, 7, 8, 9].all (fun b =>
      let s := armed cfgBang .txByte 1 (BitVec.ofNat 4 b) 4
      decide (s.lock = false ∧ s.cfg.txMode = .bitbang ∧ s.state = .txByte ∧ s.bit.toNat < 8 + s.cfg.stopCount)) =
      true := by decide

theorem witness_UartByteCompletes :
    ((sending cfgT0 .txByte 511).lock = false ∧ (sending cfgT0 .txByte 511).cfg.txMode = .uart ∧
      (sending cfgT0 .txByte 511).state = .txByte ∧ (sending cfgT0 .txByte 511).slot.toNat < 512 ∧
      (sending cfgT0 .txByte 511).cfg.markUs.toNat = 0) ∧
    ((sending cfgMark .txStartCode 0).state = .txStartCode ∧ (sending cfgMark .txStartCode 0).slot.toNat < 512 ∧
      0 < (sending cfgMark .txStartCode 0).cfg.markUs.toNat) := by decide

theorem witness_BitbangByteCompletes :
    ((armed cfgBang .txByte 511 10 4).lock = false ∧ (armed cfgBang .txByte 511 10 4).cfg.txMode = .bitbang ∧
      (armed cfgBang .txByte 511 10 4).state = .txByte ∧
      (armed cfgBang .txByte 511 10 4).bit.toNat = 8 + cfgBang.stopCount ∧
      (armed cfgBang .txByte 511 10 4).slot.toNat < 512 ∧ cfgBang.markUs.toNat = 0) ∧
    ((armed cfgBangMark .txStartCode 0 10 4).state = .txStartCode ∧ 0 < cfgBangMark.markUs.toNat) := by decide

theorem witness_LastByteSweepsAndLoops :
    ((sending cfgT0 .txByte 512).lock = false ∧ (sending cfgT0 .txByte 512).state = .txByte ∧
      (sending cfgT0 .txByte 512).slot.toNat = 512 ∧ (sending cfgT0 .txByte 512).cfg.txMode = .uart ∧
      (sending cfgT0 .txByte 512).stopReq = false) ∧
    ((armed cfgBang .txByte 512 10 4).slot.toNat = 512 ∧ (armed cfgBang .txByte 512 10 4).cfg.txMode = .bitbang ∧
      (armed cfgBang .txByte 512 10 4).bit.toNat = 8 + cfgBang.stopCount ∧
      ({ armed cfgBang .txByte 512 10 4 with stopReq := true } : State).stopReq = true) := by decide

/-- Every kind of state that ignores an event (rows I1, I2, I3, I5, I6 and the codes of U2). -/
theorem witness_UnexpectedEventsAreIgnored :
    (at0 cfgT0).state = .idle ∧ ({ at0 cfgT0 with state := .update } : State).state = .update ∧
    (∃ k, ({ at0 cfgT0 with state := .reserved 0 } : State).state = .reserved k) ∧
    ((sending cfgT0 .txByte 9).state = .txByte ∧ (sending cfgT0 .txByte 9).cfg.txMode = .uart) ∧
    ¬ ((armed cfgT0 .init 0 0 1000).state = .txStartCode ∨ (armed cfgT0 .init 0 0 1000).state = .txByte) ∧
    (armed cfgBang .txByte 9 4 4).cfg.txMode = .bitbang :=
  ⟨by decide, by decide, ⟨0, rfl⟩, by decide, by decide, by decide⟩

/-- The first position outside each range. -/
theorem witness_PositionsOutsideTheRangesStop :
    ((armed cfgT0 .markAfterBreak 513 0 12).lock = false ∧ (armed cfgT0 .markAfterBreak 513 0 12).slot.toNat > 512 ∧
      (armed cfgT0 .markAfterBreak 513 0 12).cfg.txMode = .uart) ∧
    ((sending cfgT0 .txByte 513).slot.toNat > 512 ∧ (sending cfgT0 .txByte 513).state = .txByte) ∧
    ((armed cfgBang .txByte 1 11 4).cfg.txMode = .bitbang ∧
      8 + (armed cfgBang .txByte 1 11 4).cfg.stopCount < (armed cfgBang .txByte 1 11 4).bit.toNat) := by decide

/-- A running state of the invariants in `UART` mode, with a byte in flight. -/
theorem witness_inv_uart : Inv (sending cfgT0 .txByte 9) := by constructor <;> decide

/-- A running state of the invariants in `BITBANG` mode, in a data bit. -/
theorem witness_inv_bitbang : Inv { armed cfgBang .txByte 9 4 4 with txbyte := 0xFF } := by constructor <;> decide

/-- A running state of the invariants in the break, the line low. -/
theorem witness_inv_break : Inv { armed cfgT0 .lineBreak 0 0 92 with line := some .space } := by
  constructor <;> decide

/-- The stopped engine. -/
theorem witness_inv_idle : Inv (at0 cfgT0) := by constructor <;> decide

theorem witness_SpuriousEventsChangeNothing :
    (Inv (sending cfgT0 .txByte 9) ∧ (sending cfgT0 .txByte 9).tmrArmed = false) ∧
    (Inv { armed cfgBang .txByte 9 4 4 with txbyte := 0xFF } ∧
      ({ armed cfgBang .txByte 9 4 4 with txbyte := 0xFF } : State).uartBusy = false ∧
      ({ armed cfgBang .txByte 9 4 4 with txbyte := 0xFF } : State).cfg.txMode = .bitbang) :=
  ⟨⟨witness_inv_uart, by decide⟩, witness_inv_bitbang, by decide, by decide⟩

theorem witness_HeldLockSuppressesTheAction :
    ∃ s t : State, s.lock = true ∧ s.state = .lineBreak ∧ exec .evTimer s = .next t :=
  ⟨{ armed cfgT0 .lineBreak 0 0 92 with lock := true }, _, rfl, rfl, rfl⟩

/-- One event before slot 512 completes, and one that completes it. -/
theorem witness_EventFrame :
    (∃ t, exec (Event.instr .byteTransmitted) (sending cfgT0 .txByte 511) = .next t ∧
      ¬ ((sending cfgT0 .txByte 511).slot.toNat = 512 ∧ ((sending cfgT0 .txByte 511).state = .txStartCode ∨
        (sending cfgT0 .txByte 511).state = .txByte))) ∧
    (∃ t, exec (Event.instr .timerExpired) (armed cfgBang .txByte 512 10 4) = .next t ∧
      (armed cfgBang .txByte 512 10 4).lock = false) :=
  ⟨⟨_, rfl, by decide⟩, ⟨_, rfl, by decide⟩⟩

theorem witness_LatchedByteIsKeptUntilTheNextByte :
    ∃ t, (onEvent .timerExpired (armed cfgT0 .markAfterBreak 0 0 12)).inputs = .event .timerExpired :: [] ∧
      Input.event .timerExpired ≠ .rst ∧ step (onEvent .timerExpired (armed cfgT0 .markAfterBreak 0 0 12)) = .next t :=
  ⟨_, rfl, by decide, rfl⟩

theorem witness_ConfigurationNeverChanges :
    ∃ t, step (onEvent .byteTransmitted (sending cfgT0 .txByte 512)) = .next t := ⟨_, rfl⟩

/-- Entry 7 changes by a SET, by a FADE and by the sweep. -/
theorem witness_OnlySetFadeAndSweepWriteTheStore :
    (∃ t, exec (.set 7 1) (at0 cfgT0) = .next t ∧ t.store.read 7 ≠ (at0 cfgT0).store.read 7) ∧
    (∃ t, exec (.fade 7 1 0) (at0 cfgT0) = .next t ∧ t.store.read 7 ≠ (at0 cfgT0).store.read 7) ∧
    (∃ t, exec .evByte (holding (sending cfgT0 .txByte 512) 7 { cur := 0, tgt := 255, rem := 1000 }) = .next t ∧
      t.store.read 7 ≠
        (holding (sending cfgT0 .txByte 512) 7 { cur := 0, tgt := 255, rem := 1000 }).store.read 7) :=
  ⟨⟨_, rfl, by decide⟩, ⟨_, rfl, by decide⟩, ⟨_, rfl, by decide⟩⟩

theorem witness_StartCodeStaysZeroUnlessWritten :
    (∃ t, step (onEvent .byteTransmitted (sending cfgT0 .txByte 512)) = .next t) ∧
    (onEvent .byteTransmitted (sending cfgT0 .txByte 512)).inputs = .event .byteTransmitted :: [] ∧
    (onEvent .byteTransmitted (sending cfgT0 .txByte 512)).store.read 0 = Entry.zero ∧
    (onEvent .byteTransmitted (sending cfgT0 .txByte 512)).cfg.initScene.read 0 = Entry.zero ∧
    (∀ v, Input.event .byteTransmitted ≠ .cmd (encode (.set 0 v))) ∧
    (∀ v d, Input.event .byteTransmitted ≠ .cmd (encode (.fade 0 v d))) :=
  ⟨⟨_, rfl⟩, by decide, by decide, by decide, fun _ => by simp, fun _ _ => by simp⟩

theorem witness_OutputTraceOnlyGrows :
    ∃ t, (atPort 0x100000000000).inputs = .cmd 0x100000000000 :: [] ∧ Input.cmd 0x100000000000 ≠ .rst ∧
      step (atPort 0x100000000000) = .next t := ⟨_, rfl, by decide, rfl⟩

theorem witness_EngineNeverStopsOnItsOwn :
    ∃ t, (onEvent .byteTransmitted (sending cfgT0 .txByte 512)).inputs = .event .byteTransmitted :: [] ∧
      Input.event .byteTransmitted ≠ .rst ∧ Input.event .byteTransmitted ≠ .cmd (encode .stop) ∧
      (onEvent .byteTransmitted (sending cfgT0 .txByte 512)).state ≠ .idle ∧
      (onEvent .byteTransmitted (sending cfgT0 .txByte 512)).stopReq = false ∧
      step (onEvent .byteTransmitted (sending cfgT0 .txByte 512)) = .next t :=
  ⟨_, rfl, by decide, by decide, by decide, rfl, rfl⟩

theorem witness_UnreachableStatesStayPut :
    (∃ t, step (onEvent .timerExpired { at0 cfgT0 with state := .update }) = .next t) ∧
    (∃ t, (given { at0 cfgT0 with state := .reserved 5 } [.cmd 0x100000000000]).inputs =
        .cmd 0x100000000000 :: [] ∧
      (∃ k, (given { at0 cfgT0 with state := .reserved 5 } [.cmd 0x100000000000]).state = .reserved k) ∧
      step (given { at0 cfgT0 with state := .reserved 5 } [.cmd 0x100000000000]) = .next t) :=
  ⟨⟨_, rfl⟩, ⟨_, rfl, ⟨5, rfl⟩, rfl⟩⟩

/-- Two states that differ in a duration, one that steps, one that faults and one that refuses. -/
theorem witness_DurationsDoNotSteerTheMachine :
    sameSequence (onEvent .timerExpired (armed cfgT0 .init 0 0 1000))
      (onEvent .timerExpired (armed { cfgT0 with mbbUs := 10 } .init 0 0 7)) ∧
    (∃ t, step (onEvent .timerExpired (armed cfgT0 .init 0 0 1000)) = .next t) ∧
    step (onEvent .timerExpired (armed cfgT0 .markAfterBreak 513 0 12)) = .fault .noSuchEntry ∧
    step (onEvent .timerExpired (armed cfgBang .txByte 1 11 4)) = .refused .bitOutOfRange := by
  refine ⟨?_, ⟨_, rfl⟩, rfl, rfl⟩
  simp only [sameSequence, sameButDurations]
  decide

theorem witness_StepKeepsTheInvariants :
    ∃ t, Inv (onEvent .byteTransmitted (sending cfgT0 .txByte 512)) ∧
      step (onEvent .byteTransmitted (sending cfgT0 .txByte 512)) = .next t :=
  ⟨_, by constructor <;> decide, rfl⟩

theorem witness_NoStepStopsTheMachine : ∃ s, Inv s ∧ s.state = .lineBreak := ⟨_, witness_inv_break, rfl⟩

theorem witness_ExactlyOneEventOutstanding :
    (∃ s, Inv s ∧ s.state ≠ .idle) ∧ ∃ s, Inv s ∧ s.state = .idle :=
  ⟨⟨_, witness_inv_uart, by decide⟩, ⟨_, witness_inv_idle, rfl⟩⟩

theorem witness_OutstandingEventAdvancesThePosition :
    (Inv (onEvent .byteTransmitted (sending cfgT0 .txByte 512)) ∧
      (onEvent .byteTransmitted (sending cfgT0 .txByte 512)).inputs = .event .byteTransmitted :: [] ∧
      (Input.event .byteTransmitted).agent.enabled (onEvent .byteTransmitted (sending cfgT0 .txByte 512)) = true) ∧
    (Inv (onEvent .timerExpired (armed cfgT0 .init 512 0 1000)) ∧
      (Input.event .timerExpired).agent.enabled (onEvent .timerExpired (armed cfgT0 .init 512 0 1000)) = true) :=
  ⟨⟨by constructor <;> decide, by decide, by decide⟩, by constructor <;> decide, by decide⟩

/-- The bytes of the boundary levels 65279 and 65280 (B1, F15). -/
theorem witness_SentByteIsTheIntegerPart :
    (∃ e : Entry, e.cur.toNat ≤ 65280 ∧ e.cur.toNat = 65280 ∧ e.sentByte.toNat = 255) ∧
    ∃ e : Entry, e.cur.toNat ≤ 65280 ∧ e.cur.toNat = 65279 ∧ e.sentByte.toNat = 254 :=
  ⟨⟨{ cur := 65280, tgt := 0, rem := 0 }, by decide⟩, ⟨{ cur := 65279, tgt := 0, rem := 0 }, by decide⟩⟩

theorem witness_BitbangWaveformOfOneByte :
    ∃ s : State, s.lock = false ∧ s.cfg.txMode = .bitbang ∧ s.cfg.stopBits = .two ∧ s.state = .txByte ∧
      s.bit.toNat = 0 ∧ s.tmrArmed = true ∧ s.tmrDur = 4 ∧
      s.inputs = List.replicate 10 (.event .timerExpired) ++ [] :=
  ⟨given { armed cfgBang .txByte 1 0 4 with txbyte := 0xA5 } (List.replicate 10 (.event .timerExpired)), by decide⟩

/-- `rem` equal to `delta` snaps; one more takes the division. -/
theorem witness_FadeEntryResult :
    (∃ (e : Entry) (d : Millis), e.rem.toNat = d.toNat ∧ e.rem.toNat ≤ d.toNat) ∧
    ∃ (e : Entry) (d : Millis), e.rem.toNat = d.toNat + 1 ∧ d.toNat < e.rem.toNat :=
  ⟨⟨{ cur := 0, tgt := 200, rem := 100 }, 100, by decide⟩, ⟨{ cur := 0, tgt := 200, rem := 101 }, 100, by decide⟩⟩

theorem witness_SweepIsTheLoopOverAllEntries :
    ∃ m : Memory, m.wf = true ∧ m.read 512 ≠ Entry.zero :=
  ⟨[(0, { cur := 1, tgt := 0, rem := 0 }), (512, { cur := 0, tgt := 1, rem := 0 })], by decide⟩

/-- F14 and F15 meet them, with the largest product. -/
theorem witness_FadeArithmeticBounds :
    ∃ (e : Entry) (d : Millis), e.cur.toNat ≤ 65280 ∧ d.toNat < e.rem.toNat ∧ e.cur.toNat = 65280 ∧ d.toNat = 65534 :=
  ⟨{ cur := 65280, tgt := 0, rem := 65535 }, 65534, by decide⟩

/-- Below, above and at the target. -/
theorem witness_FadeNeverOvershoots :
    (∃ (e : Entry) (d : Millis), e.cur.toNat ≤ 65280 ∧ d.toNat < e.rem.toNat ∧ e.cur.toNat < e.tgt.toNat * 256) ∧
    (∃ (e : Entry) (d : Millis), e.cur.toNat ≤ 65280 ∧ d.toNat < e.rem.toNat ∧ e.tgt.toNat * 256 < e.cur.toNat) ∧
    ∃ (e : Entry) (d : Millis), e.cur.toNat ≤ 65280 ∧ d.toNat < e.rem.toNat ∧ e.cur.toNat = e.tgt.toNat * 256 :=
  ⟨⟨{ cur := 2560, tgt := 11, rem := 1000 }, 33, by decide⟩, ⟨{ cur := 2688, tgt := 10, rem := 1000 }, 33, by decide⟩,
    ⟨{ cur := 1792, tgt := 7, rem := 900 }, 100, by decide⟩⟩

theorem witness_FadeArrivesExactly :
    (∃ (e : Entry) (d : Millis), (fadeEntry e d).rem = 0) ∧
    (∃ (e : Entry) (d : Millis), 0 < e.rem.toNat ∧ 0 < d.toNat) ∧
    ∃ e : Entry, 0 < e.rem.toNat ∧ e.cur.toNat ≤ 65280 :=
  ⟨⟨{ cur := 0, tgt := 255, rem := 20 }, 33, by decide⟩, ⟨{ cur := 0, tgt := 255, rem := 1000 }, 33, by decide⟩,
    ⟨{ cur := 100, tgt := 5, rem := 10 }, by decide⟩⟩

theorem witness_FadeStallsByTruncation :
    ∃ (e : Entry) (d : Millis), e.cur.toNat ≤ 65280 ∧ d.toNat < e.rem.toNat ∧
      (e.tgt.toNat * 256 - e.cur.toNat : Int).natAbs * d.toNat < e.rem.toNat ∧ e.cur.toNat ≠ e.tgt.toNat * 256 :=
  ⟨{ cur := 2550, tgt := 10, rem := 1000 }, 33, by decide⟩

theorem witness_SweepsAfterHostWrites :
    ∃ (e : Entry) (v t : Nat) (d : Millis), v ≤ 255 ∧ t < 2 ^ 16 ∧ d.toNat < t ∧ e.cur.toNat ≤ 65280 ∧ v = 255 :=
  ⟨{ cur := 1792, tgt := 7, rem := 800 }, 255, 65535, 65534, by decide⟩

theorem witness_EventsPerFrame :
    (cfgT0.stopBits = .two ∧ cfgT0.txMode = .uart ∧ cfgT0.markUs.toNat = 0) ∧
    (cfgMark.stopBits = .two ∧ cfgMark.txMode = .uart ∧ 0 < cfgMark.markUs.toNat) ∧
    (cfgBang.stopBits = .two ∧ cfgBang.txMode = .bitbang ∧ cfgBang.markUs.toNat = 0) ∧
    (cfgBangMark.stopBits = .two ∧ cfgBangMark.txMode = .bitbang ∧ 0 < cfgBangMark.markUs.toNat) := by decide

theorem witness_FrameReturnsToMarkBeforeBreak :
    ∃ s : State, s.state = .markBeforeBreak ∧ s.slot.toNat = 0 ∧ s.bit.toNat = 0 ∧ s.lock = false ∧
      s.stopReq = false ∧ s.uartBusy = false ∧ s.tmrArmed = true ∧ s.tmrDur = s.cfg.mbbUs ∧ s.line = some .mark ∧
      s.inputs = frameEvents s.cfg ++ [.rst] :=
  ⟨given (armed cfgT0 .markBeforeBreak 0 0 10000) (frameEvents cfgT0 ++ [.rst]),
    rfl, rfl, rfl, rfl, rfl, rfl, rfl, rfl, rfl, rfl⟩

theorem witness_StoppedFrameRunsToItsEnd :
    ∃ s : State, s.state = .markBeforeBreak ∧ s.slot.toNat = 0 ∧ s.bit.toNat = 0 ∧ s.lock = false ∧
      s.stopReq = true ∧ s.uartBusy = false ∧ s.tmrArmed = true ∧ s.tmrDur = s.cfg.mbbUs ∧ s.line = some .mark ∧
      s.inputs = frameEvents s.cfg ++ [] :=
  ⟨given { armed cfgBangMark .markBeforeBreak 0 0 10000 with stopReq := true } (frameEvents cfgBangMark ++ []),
    rfl, rfl, rfl, rfl, rfl, rfl, rfl, rfl, rfl, rfl⟩

end Sys2Proof.Tests
end

section
/-! PROOFS. The statements of 00_scope.md: the step runs the operation it decoded, and no step writes the
configuration. -/

namespace Sys2Proof

/-! ### A word packed by the encoder decodes to its instruction -/

/-- Decoding undoes encoding for operands that fit their fields (30_encoding.md R71, R72, R74): each field reads back
what was packed, and the fields a format does not use were packed with zero. -/
theorem decode_encode {i : Instr} (h : WellFormed i) : decode (encode i) = .ok i := by
  cases i with
  | start => simp [encode, decode, decodeFormatN]
  | stop => simp [encode, decode, decodeFormatN]
  | set c v =>
    obtain ⟨hc, hv⟩ : c < 4096 ∧ v < 65536 := by simpa [WellFormed, wellFormed] using h
    simp [encode, decode, decodeFormatCV, Nat.mod_eq_of_lt hc, Nat.mod_eq_of_lt hv]
  | fade c v t =>
    obtain ⟨⟨hc, hv⟩, ht⟩ : (c < 4096 ∧ v < 65536) ∧ t < 65536 := by simpa [WellFormed, wellFormed] using h
    simp [encode, decode, Nat.mod_eq_of_lt hc, Nat.mod_eq_of_lt hv, Nat.mod_eq_of_lt ht]
  | evTimer => simp [encode, decode, decodeFormatN]
  | evByte => simp [encode, decode, decodeFormatN]

end Sys2Proof

namespace Sys2Proof.Machine

open Sys2Proof

/-! ### Arrivals and the operations they run -/

/-- A host word that decodes to a foreground operation runs it (43_host_commands.md R170). -/
theorem arrive_cmd {w : OpWord} {i : Instr} (s : State) (hw : decode w = .ok i) (hi : i.context = .foreground) :
    arrive (.cmd w) s = exec i s := by
  simp [arrive, hostDecode_eq_some_iff.2 ⟨hw, hi⟩]

/-- A trace word of a foreground operation arrives at the host port (30_encoding.md R78). -/
theorem traceInput_of_foreground {w : OpWord} {i : Instr} (hw : decode w = .ok i) (hi : i.context = .foreground) :
    traceInput w = .cmd w := by
  cases i with
  | start | stop | set | fade => simp [traceInput, hw]
  | evTimer | evByte => cases hi

/-- A trace word of a line event is the pulse on that event's line (R78). -/
theorem traceInput_of_event {w : OpWord} {e : Event} (hw : decode w = .ok e.instr) : traceInput w = .event e := by
  cases e with
  | timerExpired | byteTransmitted => simp [traceInput, hw, Event.instr]

/-- A trace word runs the operation it decodes to, of either class. -/
theorem arrive_traceInput {w : OpWord} {i : Instr} (s : State) (hw : decode w = .ok i) :
    arrive (traceInput w) s = exec i s := by
  cases i with
  | start | stop | set | fade => rw [traceInput_of_foreground hw rfl, arrive_cmd s hw rfl]
  | evTimer => rw [traceInput_of_event (e := .timerExpired) hw]; rfl
  | evByte => rw [traceInput_of_event (e := .byteTransmitted) hw]; rfl

/-- A 48-bit word is itself as a 48-bit table word. -/
@[simp] theorem tableWord_toNat (w : OpWord) : tableWord 48 w.toNat = w := by
  simp [tableWord, Nat.mod_eq_of_lt w.isLt]

/-- The step after `withFetchWord` is the arrival of the placed word at the state it was placed on (log 18). -/
theorem step_withFetchWord (s : State) (nbits w : Nat) :
    step (s.withFetchWord nbits w) = arrive (traceInput (tableWord nbits w)) s :=
  step_cons rfl

/-- Settles O7: a host word and an event by the arrival's own rule, a placed table word because decoding undoes
encoding. -/
theorem stepRunsTheDecodedInstruction : Obligations.StepRunsTheDecodedInstruction := by
  intro s
  refine ⟨fun w i rest hin hw hi => ?_, fun rest hin => step_cons hin, fun rest hin => step_cons hin, fun i hwf => ?_⟩
  · exact (step_cons hin).trans (arrive_cmd _ hw hi)
  · rw [step_withFetchWord, tableWord_toNat]
    exact arrive_traceInput s (decode_encode hwf)

/-! ### The configuration along a step -/

/-- No action under the lock writes the configuration. -/
theorem lockedAction_cfg {s t : State} (h : lockedAction s = .next t) : t.cfg = s.cfg := by
  obtain ⟨u, hu, rfl⟩ := lockedAction_next_iff.1 h
  exact (action_frame hu).1

/-- A delivery does not write the configuration: neither the transition's register writes nor the action do
(60_exceptions.md R196). -/
theorem deliver_cfg {e : Event} {s t : State} (h : deliver e s = .next t) : t.cfg = s.cfg := by
  rcases deliver_cases h with ⟨-, rfl⟩ | ⟨-, -, htr⟩ | ⟨-, -, u, v, htr, hact, rfl⟩
  · rfl
  · exact (applyTransition_frame htr).1
  · calc (v.setLock false).cfg = u.cfg := (action_frame hact).1
      _ = s.cfg := (applyTransition_frame htr).1

/-- A host write does not write the configuration, refused or performed. -/
theorem hostWrite_cfg {c v : Nat} {f : Entry → Entry} {s t : State} (h : hostWrite c v f s = .next t) :
    t.cfg = s.cfg := by
  rw [hostWrite_eq] at h
  split at h
  · cases h; rfl
  · split at h <;> (cases h; rfl)

/-- START does not write the configuration, from `Idle` or from a running state (43_host_commands.md R171). -/
theorem execStart_cfg {s t : State} (h : execStart s = .next t) : t.cfg = s.cfg := by
  unfold execStart at h
  split at h
  · obtain ⟨u, hu, hut⟩ := andThen_next_iff.1 h
    cases hut
    simpa using lockedAction_cfg hu
  · cases h; rfl

/-- No operation writes the configuration (10_state.md R35). -/
theorem exec_cfg {i : Instr} {s t : State} (h : exec i s = .next t) : t.cfg = s.cfg := by
  cases i with
  | start => exact execStart_cfg h
  | stop => cases h; exact s.requestStop_cfg
  | set c v => exact hostWrite_cfg h
  | fade c v d => exact hostWrite_cfg h
  | evTimer => exact (deliver_cfg h).trans s.timerFired_cfg
  | evByte => exact (deliver_cfg h).trans s.byteSent_cfg

/-- No arrival writes the configuration: a word's or an event's operation, a refused word, reset. -/
theorem arrive_cfg {a : Input} {s t : State} (h : arrive a s = .next t) : t.cfg = s.cfg := by
  cases a with
  | cmd w =>
    cases hw : hostDecode w with
    | some i =>
      simp only [arrive, hw] at h
      exact exec_cfg h
    | none =>
      simp only [arrive, hw] at h
      cases h; rfl
  | event e => exact exec_cfg h
  | rst => cases h; rfl

/-- Settles O35: a step is nothing, or one arrival at the state without it. -/
theorem configurationNeverChanges : Obligations.ConfigurationNeverChanges := by
  intro s t h
  cases hin : s.inputs with
  | nil => rw [step_nil hin] at h; cases h; rfl
  | cons a rest => rw [step_cons hin] at h; exact (arrive_cfg h).trans (s.setInputs_cfg rest)

end Sys2Proof.Machine
end

section
/-! PROOFS. The statements of 10_state.md: the codes, the state after reset, and what the host commands, the two events
and a step leave alone. -/

namespace Sys2Proof.Machine

open Sys2Proof

/-! ### Codes and reset -/

/-- The state that a 4-bit code names (10_state.md R21). -/
def FsmState.ofCode (b : BitVec 4) : FsmState :=
  match b.toNat with
  | 0 => .idle
  | 1 => .init
  | 2 => .markBeforeBreak
  | 3 => .lineBreak
  | 4 => .markAfterBreak
  | 5 => .txStartCode
  | 6 => .txStartMark
  | 7 => .txByte
  | 8 => .txMark
  | 9 => .update
  | n => .reserved (Fin.ofNat 6 (n - 10))

/-- A state is read back from its code, so no two states share one. -/
theorem FsmState.ofCode_code : Function.LeftInverse FsmState.ofCode FsmState.code := by
  intro p
  cases p with
  | reserved k => revert k; decide
  | _ => rfl

/-- Settles O6: the codes are those written in the table, and each is read back. -/
theorem codesAreThoseOfTheTables : Obligations.CodesAreThoseOfTheTables :=
  ⟨rfl, rfl, rfl, rfl, rfl, rfl, rfl, rfl, rfl, rfl, FsmState.ofCode_code.injective, rfl, rfl, rfl, rfl⟩

/-- Settles O12: the default scene lists no entry, so every index reads as zero. -/
theorem resetStateIsQuiet : Obligations.ResetStateIsQuiet :=
  ⟨rfl, rfl, rfl, rfl, rfl, rfl, rfl, rfl, rfl, rfl, rfl, rfl, fun _ => rfl, rfl⟩

/-! ### What each host command answers -/

/-- START in `Idle`: `Init` entered, its action run, `OK` answered (43_host_commands.md R171). -/
theorem exec_start_idle {s : State} (h : s.state = .idle) :
    exec .start s =
      .next (((actInit (((s.setStopReq false).setState .init).setLock true)).setLock false).respond .ok) := by
  simp only [exec, execStart, h, if_true]
  rw [lockedAction_init _ rfl, andThen_next]

/-- START in a running state withdraws a stop and answers (R171). -/
theorem exec_start_running {s : State} (h : s.state ≠ .idle) :
    exec .start s = .next ((s.setStopReq false).respond .ok) := by
  simp [exec, execStart, h]

/-- A host write, refused or performed, is an answer and a store that differs at the named index only (R173, R174). -/
theorem hostWrite_cases {c v : Nat} {f : Entry → Entry} {s t : State} (h : hostWrite c v f s = .next t) :
    ∃ m r, t = (s.setStore m).respond r ∧ ∀ j, j ≠ c → m.read j = s.store.read j := by
  rw [hostWrite_eq] at h
  split at h
  · cases h; exact ⟨s.store, .errChannel, rfl, fun _ _ => rfl⟩
  · split at h <;> cases h
    · exact ⟨s.store, .errValue, rfl, fun _ _ => rfl⟩
    · exact ⟨_, .ok, rfl, fun _ hj => Memory.read_write_other _ _ hj⟩

/-- Settles O20: START by whether it finds `Idle`, STOP by its one flag, SET and FADE by the one entry they name. -/
theorem hostCommandFrame : Obligations.HostCommandFrame := by
  intro i s t hi h
  cases i with
  | start =>
    by_cases hs : s.state = .idle
    · rw [exec_start_idle hs] at h; cases h; simp [actInit, hs]
    · rw [exec_start_running hs] at h; cases h; simp
  | stop => cases h; simp
  | set c v =>
    obtain ⟨m, r, rfl, hm⟩ := hostWrite_cases h
    simpa using fun j hj => hm j (Ne.symm hj)
  | fade c v d =>
    obtain ⟨m, r, rfl, hm⟩ := hostWrite_cases h
    simpa using fun j hj => hm j (Ne.symm hj)
  | evTimer | evByte => cases hi

/-- A host command keeps the latched byte. -/
theorem hostCommand_txbyte {i : Instr} {s t : State} (hi : i.context = .foreground) (h : exec i s = .next t) :
    t.txbyte = s.txbyte := by
  obtain ⟨-, -, -, htx, -⟩ := hostCommandFrame i s t hi h
  exact htx

/-- The trace only grows in a host command: START from `Idle` appends to it, every other command keeps it. -/
theorem hostCommand_out {i : Instr} {s t : State} (hi : i.context = .foreground) (h : exec i s = .next t) :
    s.out <+: t.out := by
  by_cases hc : i ≠ .start ∨ s.state ≠ .idle
  · obtain ⟨-, -, -, -, -, -, -, hkeep, -⟩ := hostCommandFrame i s t hi h
    obtain ⟨-, -, -, -, -, hout⟩ := hkeep hc
    rw [hout]
  · obtain ⟨rfl, hs⟩ : i = .start ∧ s.state = .idle := by simpa using hc
    rw [exec_start_idle hs] at h; cases h; simp [actInit]

/-! ### What an action does to the latched byte and to the stop flag -/

/-- The byte of a slot by division is the byte sent for its entry (41_byte_transmit.md R137). -/
theorem slotByte_eq (s : State) (i : Nat) : slotByte s i = (s.store.read i).sentByte := by
  simp [slotByte, Entry.sentByte, BitVec.extractLsb', Nat.shiftRight_eq_div_pow]

/-- The step from `s` to `t` started a byte (R130): the byte latched from the entry `slot` names, then handed to the
UART, or its start bit driven. -/
def ByteStarted (s t : State) : Prop :=
  (t.state = .txStartCode ∨ t.state = .txByte) ∧ t.txbyte = slotByte s t.slot.toNat ∧
    t.store = s.store ∧ (t.cfg.txMode = .bitbang → t.bit.toNat = 0) ∧
    (t.cfg.txMode = .uart → t.uartBusy = true ∧ t.out = s.out ++ [.send t.txbyte])

/-- Of the state before, the start of a byte depends on the store and the trace alone. -/
theorem ByteStarted.of_eq {r s t : State} (h : ByteStarted s t) (hstore : s.store = r.store) (hout : s.out = r.out) :
    ByteStarted r t := by
  simpa only [ByteStarted, slotByte, hstore, hout] using h

/-- What an action can do, sorted by what it may write besides the output: the byte transmitter latches, the frame's
start looks at `stop_req`, and every other action keeps both `txbyte` and `stop_req` (40_fsm_sequencer.md R93). -/
theorem action_cases {s t : State} (h : action s = .next t) :
    ((s.state = .txStartCode ∨ s.state = .txByte) ∧ txAction s = .next t) ∨
    (s.state = .markBeforeBreak ∧ t = actMarkBeforeBreak s) ∨
    (s.state = .update ∧ t = actUpdate s) ∨
    (t.txbyte = s.txbyte ∧ t.stopReq = s.stopReq) := by
  unfold action at h
  cases hs : s.state <;> simp only [hs, Host.Outcome.next.injEq, reduceCtorEq] at h
  case txStartCode => exact .inl ⟨.inl rfl, h⟩
  case txByte => exact .inl ⟨.inr rfl, h⟩
  case markBeforeBreak => exact .inr (.inl ⟨rfl, h.symm⟩)
  case update => exact .inr (.inr (.inl ⟨rfl, h.symm⟩))
  all_goals (subst h; refine .inr (.inr (.inr ?_)))
  case lineBreak => unfold actBreak; split <;> exact ⟨rfl, rfl⟩
  all_goals exact ⟨rfl, rfl⟩

/-- The byte transmitter keeps the latched byte, or starts a byte (R130). -/
theorem txAction_txbyte {s t : State} (hs : s.state = .txStartCode ∨ s.state = .txByte) (h : txAction s = .next t) :
    t.txbyte = s.txbyte ∨ ByteStarted s t := by
  rcases txAction_next_iff.1 h with ⟨hm, -, rfl⟩ | ⟨hm, hb, -, rfl⟩ | ⟨-, -, -, rfl⟩
  · right; simp [ByteStarted, uartSend, slotByte_eq, hs, hm]
  · right; simp [ByteStarted, driveCell, slotByte_eq, hs, hm, hb]
  · left; rfl

/-- No byte transmitter's action writes `stop_req`. -/
theorem txAction_stopReq {s t : State} (h : txAction s = .next t) : t.stopReq = s.stopReq := by
  rcases txAction_next_iff.1 h with ⟨-, -, rfl⟩ | ⟨-, -, -, rfl⟩ | ⟨-, -, -, rfl⟩ <;> rfl

/-- `MarkBeforeBreak`'s action keeps the latched byte. -/
theorem actMarkBeforeBreak_txbyte (s : State) : (actMarkBeforeBreak s).txbyte = s.txbyte := by
  obtain ⟨-, -, htx, -⟩ := actMarkBeforeBreak_frame s
  exact htx

/-- An action keeps the latched byte, or starts a byte. -/
theorem action_txbyte {s t : State} (h : action s = .next t) : t.txbyte = s.txbyte ∨ ByteStarted s t := by
  rcases action_cases h with ⟨hs, htx⟩ | ⟨-, rfl⟩ | ⟨-, rfl⟩ | ⟨htx, -⟩
  · exact txAction_txbyte hs htx
  · exact .inl (actMarkBeforeBreak_txbyte s)
  · exact .inl (actMarkBeforeBreak_txbyte _)
  · exact .inl htx

/-- `stop_req` is kept between `s` and `t`, or a stop was honoured (10_state.md R27, 40_fsm_sequencer.md R96). -/
def StopKeptOrHonoured (s t : State) : Prop :=
  t.stopReq = s.stopReq ∨ (s.stopReq = true ∧ t.stopReq = false ∧ t.state = .idle)

/-- `MarkBeforeBreak`'s action clears `stop_req` only on its way into `Idle` (R96). -/
theorem actMarkBeforeBreak_stopReq (s : State) : StopKeptOrHonoured s (actMarkBeforeBreak s) := by
  rcases actMarkBeforeBreak_cases s with ⟨hs, h⟩ | ⟨-, h⟩
  · right; simp [h, hs]
  · left; simp [h]

/-- An action clears `stop_req` only on its way into `Idle`, and never sets it. -/
theorem action_stopReq {s t : State} (h : action s = .next t) : StopKeptOrHonoured s t := by
  rcases action_cases h with ⟨-, htx⟩ | ⟨-, rfl⟩ | ⟨-, rfl⟩ | ⟨-, hstop⟩
  · exact .inl (txAction_stopReq htx)
  · exact actMarkBeforeBreak_stopReq s
  · exact actMarkBeforeBreak_stopReq ((s.setStore (fadeSweep s.store s.cfg.deltaMs)).setState .markBeforeBreak)
  · exact .inl hstop

/-! ### When `Update` is entered -/

/-- A byte state that accepts a TimerExpired takes it as the end of a bit period (40_fsm_sequencer.md R109). -/
theorem byteStateTimer_of_ne_ignore {c : Config} (h : byteStateTimer c ≠ .ignore) : byteStateTimer c = .bitElapsed := by
  unfold byteStateTimer at h ⊢
  cases hm : c.txMode with
  | uart => simp [hm] at h
  | bitbang => rfl

/-- A byte state that accepts a ByteTransmitted takes it as the end of the byte (R108). -/
theorem byteStateByte_of_ne_ignore {c : Config} (h : byteStateByte c ≠ .ignore) : byteStateByte c = .byteDone := by
  unfold byteStateByte at h ⊢
  cases hm : c.txMode with
  | uart => rfl
  | bitbang => simp [hm] at h

/-- An accepted event is a move to a state other than `Update`, or the end of a byte or of a bit period in a byte
state (40_fsm_sequencer.md R112). -/
theorem transition_cases {c : Config} {p : FsmState} {e : Event} (h : transition c p e ≠ .ignore) :
    (∃ q, transition c p e = .goto q ∧ q ≠ .update) ∨
    ((p = .txStartCode ∨ p = .txByte) ∧ (transition c p e = .byteDone ∨ transition c p e = .bitElapsed)) := by
  cases e with
  | timerExpired =>
    cases p with
    | init | markBeforeBreak | lineBreak | markAfterBreak | txStartMark | txMark =>
      exact .inl ⟨_, rfl, by decide⟩
    | txStartCode => exact .inr ⟨.inl rfl, .inr (byteStateTimer_of_ne_ignore h)⟩
    | txByte => exact .inr ⟨.inr rfl, .inr (byteStateTimer_of_ne_ignore h)⟩
    | idle | update | reserved => exact absurd rfl h
  | byteTransmitted =>
    cases p with
    | txStartCode => exact .inr ⟨.inl rfl, .inl (byteStateByte_of_ne_ignore h)⟩
    | txByte => exact .inr ⟨.inr rfl, .inl (byteStateByte_of_ne_ignore h)⟩
    | _ => exact absurd rfl h

/-- The state after a byte that is not the frame's last is not `Update` (41_byte_transmit.md R135). -/
theorem afterByte_ne_update (s : State) : afterByte s ≠ .update := by
  unfold afterByte; split
  · split <;> decide
  · decide

/-- The end of a byte enters `Update` only for slot 512 (R135). -/
theorem byteDone_update {s t : State} (h : byteDone s = .next t) (ht : t.state = .update) :
    s.slot.toNat = channelCount := by
  rcases byteDone_next_iff.1 h with ⟨hslot, -⟩ | ⟨-, rfl⟩
  · exact hslot
  · exact absurd ht (afterByte_ne_update s)

/-- A transition enters `Update` only where the byte of slot 512 completes (40_fsm_sequencer.md R113). -/
theorem applyTransition_update {e : Event} {s t : State} (htr : transition s.cfg s.state e ≠ .ignore)
    (h : applyTransition (transition s.cfg s.state e) s = .next t) (ht : t.state = .update) :
    s.slot.toNat = channelCount ∧ (s.state = .txStartCode ∨ s.state = .txByte) := by
  rcases transition_cases htr with ⟨q, hq, hne⟩ | ⟨hs, hb | hb⟩
  · rw [hq] at h; cases h; exact absurd ht hne
  · rw [hb] at h; exact ⟨byteDone_update h ht, hs⟩
  · rw [hb] at h
    rcases bitElapsed_next_iff.1 h with ⟨-, rfl⟩ | ⟨-, hd⟩
    · rcases hs with hs | hs <;> simp [hs] at ht
    · exact ⟨byteDone_update hd ht, hs⟩

/-! ### What a delivery leaves alone -/

/-- A delivery keeps the answers, the arrivals and the lock, and the trace only grows (60_exceptions.md R196). -/
theorem deliver_frame {e : Event} {s t : State} (h : deliver e s = .next t) :
    t.resps = s.resps ∧ t.inputs = s.inputs ∧ t.lock = s.lock ∧ s.out <+: t.out := by
  rcases deliver_cases h with ⟨-, rfl⟩ | ⟨-, -, htr⟩ | ⟨hlock, -, u, v, htr, hact, rfl⟩
  · simp
  · have hu := applyTransition_frame htr
    simp [hu]
  · obtain ⟨-, -, -, -, -, -, -, -, hout, -, -, hresps, hinputs⟩ := applyTransition_frame htr
    obtain ⟨-, -, -, hresps', hinputs', -, hout'⟩ := action_frame hact
    exact ⟨hresps'.trans hresps, hinputs'.trans hinputs, hlock.symm, hout ▸ hout'⟩

/-- A delivery clears `stop_req` only on its way into `Idle`, and never sets it. -/
theorem deliver_stopReq {e : Event} {s t : State} (h : deliver e s = .next t) : StopKeptOrHonoured s t := by
  rcases deliver_cases h with ⟨-, rfl⟩ | ⟨-, -, htr⟩ | ⟨-, -, u, v, htr, hact, rfl⟩
  · exact .inl rfl
  · have hu := applyTransition_frame htr
    simp [StopKeptOrHonoured, hu]
  · have hu := applyTransition_frame htr
    have hv := action_stopReq hact
    simpa [StopKeptOrHonoured, hu] using hv

/-- A delivery keeps the store, or completes slot 512 and sweeps once (R113, 10_state.md R37). -/
theorem deliver_store {e : Event} {s t : State} (h : deliver e s = .next t) :
    t.store = s.store ∨
    (s.slot.toNat = channelCount ∧ (s.state = .txStartCode ∨ s.state = .txByte) ∧
      t.store = fadeSweep s.store s.cfg.deltaMs) := by
  rcases deliver_cases h with ⟨-, rfl⟩ | ⟨-, -, htr⟩ | ⟨-, hne, u, v, htr, hact, rfl⟩
  · exact .inl rfl
  · have hu := applyTransition_frame htr
    simp [hu]
  · obtain ⟨hcfg, -, -, -, -, -, -, -, -, -, hstore, -⟩ := applyTransition_frame htr
    obtain ⟨-, -, -, -, -, hsweep, -⟩ := action_frame hact
    by_cases hup : u.state = .update
    · obtain ⟨hslot, hs⟩ := applyTransition_update hne htr hup
      exact .inr ⟨hslot, hs, by simpa [hup, hcfg, hstore] using hsweep⟩
    · left; simpa [hup, hstore] using hsweep

/-- A delivery keeps the latched byte, or starts a byte. -/
theorem deliver_txbyte {e : Event} {s t : State} (h : deliver e s = .next t) :
    t.txbyte = s.txbyte ∨ ByteStarted s t := by
  rcases deliver_cases h with ⟨-, rfl⟩ | ⟨-, -, htr⟩ | ⟨-, -, u, v, htr, hact, rfl⟩
  · exact .inl rfl
  · have hu := applyTransition_frame htr
    simp [hu]
  · obtain ⟨-, htx, -, -, -, -, -, -, hout, -, hstore, -⟩ := applyTransition_frame htr
    rcases action_txbyte hact with hv | hv
    · exact .inl (hv.trans htx)
    · exact .inr (hv.of_eq (r := s) hstore hout)

/-! ### What the two events leave alone -/

/-- The bookkeeping of an event before its delivery (40_fsm_sequencer.md R91, R92). -/
def State.eventNoted (e : Event) (s : State) : State :=
  match e with
  | .timerExpired => s.timerFired
  | .byteTransmitted => s.byteSent

/-- An event's operation is its bookkeeping and then its delivery (R91, R92). -/
theorem exec_event (e : Event) (s : State) : exec e.instr s = deliver e (s.eventNoted e) := by
  cases e <;> rfl

section
variable (e : Event) (s : State)

@[simp] theorem State.eventNoted_cfg : (s.eventNoted e).cfg = s.cfg := by cases e <;> simp [State.eventNoted]
@[simp] theorem State.eventNoted_state : (s.eventNoted e).state = s.state := by cases e <;> simp [State.eventNoted]
@[simp] theorem State.eventNoted_slot : (s.eventNoted e).slot = s.slot := by cases e <;> simp [State.eventNoted]
@[simp] theorem State.eventNoted_txbyte : (s.eventNoted e).txbyte = s.txbyte := by cases e <;> simp [State.eventNoted]
@[simp] theorem State.eventNoted_lock : (s.eventNoted e).lock = s.lock := by cases e <;> simp [State.eventNoted]
@[simp] theorem State.eventNoted_stopReq : (s.eventNoted e).stopReq = s.stopReq := by
  cases e <;> simp [State.eventNoted]
@[simp] theorem State.eventNoted_out : (s.eventNoted e).out = s.out := by cases e <;> simp [State.eventNoted]
@[simp] theorem State.eventNoted_store : (s.eventNoted e).store = s.store := by cases e <;> simp [State.eventNoted]
@[simp] theorem State.eventNoted_resps : (s.eventNoted e).resps = s.resps := by cases e <;> simp [State.eventNoted]
@[simp] theorem State.eventNoted_inputs : (s.eventNoted e).inputs = s.inputs := by cases e <;> simp [State.eventNoted]

end

/-- An event keeps the store, or completes slot 512 and sweeps once. -/
theorem exec_event_store {e : Event} {s t : State} (h : exec e.instr s = .next t) :
    t.store = s.store ∨
    (s.slot.toNat = channelCount ∧ (s.state = .txStartCode ∨ s.state = .txByte) ∧
      t.store = fadeSweep s.store s.cfg.deltaMs) := by
  rw [exec_event] at h
  simpa using deliver_store h

/-- Settles O33: the delivery's frame, its one use of `stop_req`, and its one sweep, which writes no `tgt`. -/
theorem eventFrame : Obligations.EventFrame := by
  intro e s t h
  have hcfg : t.cfg = s.cfg := exec_cfg h
  have hstore := exec_event_store h
  rw [exec_event] at h
  obtain ⟨hresps, hinputs, hlock, -⟩ := deliver_frame h
  have hstop : StopKeptOrHonoured s t := by simpa [StopKeptOrHonoured] using deliver_stopReq h
  refine ⟨hcfg, by simpa using hresps, by simpa using hinputs, by simp [hlock], hstop, fun j => ?_, fun hno j => ?_⟩
  · rcases hstore with hst | ⟨-, -, hst⟩
    · rw [hst]
    · rw [hst, read_fadeSweep]; split <;> simp
  · rcases hstore with hst | ⟨hslot, hs, -⟩
    · rw [hst]
    · exact absurd ⟨hslot, hs⟩ hno

/-! ### What an arrival can do -/

/-- An arrival is a host word that is performed, a host word that is refused, an event, or reset (60_exceptions.md
R208). -/
theorem arrive_cases {a : Input} {s t : State} (h : arrive a s = .next t) :
    (∃ w i, a = .cmd w ∧ decode w = .ok i ∧ i.context = .foreground ∧ exec i s = .next t) ∨
    (∃ w, a = .cmd w ∧ hostDecode w = none ∧ t = s.respond .errIllegal) ∨
    (∃ e, a = .event e ∧ exec e.instr s = .next t) ∨ (a = .rst ∧ t = doReset s) := by
  cases a with
  | cmd w =>
    cases hw : hostDecode w with
    | some i =>
      obtain ⟨hdec, hi⟩ := hostDecode_eq_some_iff.1 hw
      exact .inl ⟨w, i, rfl, hdec, hi, by simpa only [arrive, hw] using h⟩
    | none =>
      simp only [arrive, hw] at h
      cases h
      exact .inr (.inl ⟨w, rfl, hw, rfl⟩)
  | event e => exact .inr (.inr (.inl ⟨e, rfl, h⟩))
  | rst => cases h; exact .inr (.inr (.inr ⟨rfl, rfl⟩))

/-- Settles O34: host words keep the latched byte, and an event keeps it or starts a byte. -/
theorem latchedByteIsKeptUntilTheNextByte : Obligations.LatchedByteIsKeptUntilTheNextByte := by
  intro s t a rest hin hrst h
  rw [step_cons hin] at h
  rcases arrive_cases h with ⟨w, i, -, -, hi, hex⟩ | ⟨w, -, -, rfl⟩ | ⟨e, -, hex⟩ | ⟨ha, -⟩
  · exact .inl (by simpa using hostCommand_txbyte hi hex)
  · exact .inl rfl
  · rw [exec_event] at hex
    rcases deliver_txbyte hex with htx | hstart
    · exact .inl (by simpa using htx)
    · exact .inr (hstart.of_eq (r := s) (by simp) (by simp))
  · exact absurd ha hrst

/-- Settles O38: host words and events append to the trace or keep it. -/
theorem outputTraceOnlyGrows : Obligations.OutputTraceOnlyGrows := by
  intro s t a rest hin hrst h
  rw [step_cons hin] at h
  rcases arrive_cases h with ⟨w, i, -, -, hi, hex⟩ | ⟨w, -, -, rfl⟩ | ⟨e, -, hex⟩ | ⟨ha, -⟩
  · simpa using hostCommand_out hi hex
  · simp
  · rw [exec_event] at hex
    obtain ⟨-, -, -, hout⟩ := deliver_frame hex
    simpa using hout
  · exact absurd ha hrst

end Sys2Proof.Machine
end

section
/-! PROOFS. The statements of 20_memory.md: which steps write the Channel Store and which entry, that a SET repeated
writes nothing new, and the start-code entry. -/

namespace Sys2Proof

/-! ### A word that decodes is the word of its instruction -/

/-- A format-N word decodes exactly when its three operand fields are zero (30_encoding.md R72). -/
theorem decodeFormatN_eq_ok_iff {w : OpWord} {i j : Instr} :
    decodeFormatN w i = .ok j ↔ (chField w = 0 ∧ valField w = 0 ∧ msField w = 0) ∧ i = j := by
  unfold decodeFormatN; split <;> simp [*]

/-- A format-CV word decodes exactly when its field `ms` is zero (R72). -/
theorem decodeFormatCV_eq_ok_iff {w : OpWord} {i j : Instr} :
    decodeFormatCV w i = .ok j ↔ msField w = 0 ∧ i = j := by
  unfold decodeFormatCV; split <;> simp [*]

/-- A word with no operand is its operation code packed with zeros. -/
theorem packWord_of_formatN {w : OpWord} {op : Nat} (hop : opField w = op)
    (h : chField w = 0 ∧ valField w = 0 ∧ msField w = 0) : packWord (BitVec.ofNat 4 op) 0 0 0 = w := by
  obtain ⟨hch, hval, hms⟩ := h
  simpa [hop, hch, hval, hms] using packWord_fields w

/-- Encoding undoes decoding: the operation code is read off the row of R74 that decoded, and each field the format
does not use is zero (R72). -/
theorem encode_of_decode {w : OpWord} {i : Instr} (h : decode w = .ok i) : encode i = w := by
  unfold decode at h
  split at h
  case h_3 hop =>
    obtain ⟨hms, rfl⟩ := decodeFormatCV_eq_ok_iff.1 h
    simpa [encode, hop, hms] using packWord_fields w
  case h_4 hop =>
    cases h
    simpa [encode, hop] using packWord_fields w
  case h_7 => cases h
  all_goals
    next hop =>
      obtain ⟨hzero, rfl⟩ := decodeFormatN_eq_ok_iff.1 h
      exact packWord_of_formatN hop hzero

/-! ### Writing back what is there -/

/-- An entry written back where it was read leaves a store in canonical form as it is (20_memory.md R53). -/
theorem Memory.write_read_same {m : Memory} {i : Nat} (h : m.wf = true) (hi : i ≤ channelCount) :
    m.write i (m.read i) = m := by
  refine Memory.ext_of_wf (Memory.wf_write _ h hi) h fun j => ?_
  by_cases hj : j = i
  · subst hj; exact Memory.read_write_same m j _
  · exact Memory.read_write_other m _ hj

end Sys2Proof

namespace Sys2Proof.Machine

open Sys2Proof

/-! ### SET twice -/

/-- The store after a host write: written at the index named when both operands are legal, else kept (R51). -/
theorem hostWrite_store {c v : Nat} {f : Entry → Entry} {s t : State} (h : hostWrite c v f s = .next t) :
    t.store = if c ≤ 512 ∧ v ≤ 255 then s.store.write c (f (s.store.read c)) else s.store := by
  rw [hostWrite_eq] at h
  split at h
  · cases h; exact (if_neg (by omega)).symm
  · split at h
    · cases h; exact (if_neg (by omega)).symm
    · cases h; exact (if_pos (by omega)).symm

/-- An entry that SET has written is one that SET leaves as it is. -/
@[simp] theorem setEntry_setEntry (e : Entry) (v : Nat) : setEntry (setEntry e v) v = setEntry e v := rfl

/-- Settles O19: a refused SET writes nothing; a performed one leaves an entry that the second writes back. -/
theorem setIsIdempotent : Obligations.SetIsIdempotent := by
  intro c v s t u hwf hst htu
  have ht := hostWrite_store hst
  have hu := hostWrite_store htu
  by_cases hcv : c ≤ 512 ∧ v ≤ 255
  · rw [if_pos hcv] at ht hu
    have hread : t.store.read c = setEntry (s.store.read c) v := by rw [ht, Memory.read_write_same]
    have hwft : t.store.wf = true := ht ▸ Memory.wf_write _ hwf hcv.1
    calc u.store = t.store.write c (setEntry (t.store.read c) v) := hu
      _ = t.store.write c (t.store.read c) := by rw [hread, setEntry_setEntry]
      _ = t.store := Memory.write_read_same hwft hcv.1
  · rw [hu, if_neg hcv]

/-! ### The writers of the store -/

/-- An entry that a host write changes is the one it names, with an index in range (20_memory.md R51). -/
theorem hostWrite_changed {c v j : Nat} {f : Entry → Entry} {s t : State} (h : hostWrite c v f s = .next t)
    (hne : t.store.read j ≠ s.store.read j) : j = c ∧ c ≤ 512 := by
  rw [hostWrite_store h] at hne
  split at hne
  · next hcv => exact ⟨by_contra fun hj => hne (Memory.read_write_other _ _ hj), hcv.1⟩
  · exact absurd rfl hne

/-- An entry that an event changes is one that the sweep of slot 512 faded (R50, 42_fade_pipeline.md R150). -/
theorem exec_event_changed {e : Event} {s t : State} {j : Nat} (h : exec e.instr s = .next t)
    (hne : t.store.read j ≠ s.store.read j) :
    j ≤ 512 ∧ s.slot.toNat = 512 ∧ (s.state = .txStartCode ∨ s.state = .txByte) ∧
      t.store.read j = fadeEntry (s.store.read j) s.cfg.deltaMs := by
  rcases exec_event_store h with hst | ⟨hslot, hs, hst⟩
  · exact absurd (by rw [hst]) hne
  · rw [hst, read_fadeSweep] at hne ⊢
    split at hne
    · next hj => exact ⟨hj, hslot, hs, if_pos hj⟩
    · exact absurd rfl hne

/-- Settles O36: START and STOP keep every entry, SET and FADE every entry but the named one, and an event's only
write is the sweep. -/
theorem onlySetFadeAndSweepWriteTheStore : Obligations.OnlySetFadeAndSweepWriteTheStore := by
  intro i s t j h hne
  cases i with
  | start | stop =>
    obtain ⟨-, -, -, -, -, -, -, -, -, hread⟩ := hostCommandFrame _ s t rfl h
    exact absurd (hread j nofun nofun) hne
  | set c v =>
    obtain ⟨rfl, hj⟩ := hostWrite_changed h hne
    exact ⟨hj, .inl ⟨v, rfl⟩⟩
  | fade c v d =>
    obtain ⟨rfl, hj⟩ := hostWrite_changed h hne
    exact ⟨hj, .inr (.inl ⟨v, d, rfl⟩)⟩
  | evTimer =>
    obtain ⟨hj, hsweep⟩ := exec_event_changed (e := .timerExpired) h hne
    exact ⟨hj, .inr (.inr ⟨rfl, hsweep⟩)⟩
  | evByte =>
    obtain ⟨hj, hsweep⟩ := exec_event_changed (e := .byteTransmitted) h hne
    exact ⟨hj, .inr (.inr ⟨rfl, hsweep⟩)⟩

/-! ### The start-code entry -/

/-- An entry that is zero stays zero through every operation but a SET or FADE that names it: the sweep leaves a zero
entry at zero. -/
theorem exec_keeps_zero_entry {i : Instr} {s t : State} {j : Nat} (h : exec i s = .next t)
    (hzero : s.store.read j = Entry.zero) (hset : ∀ v, i ≠ .set j v) (hfade : ∀ v d, i ≠ .fade j v d) :
    t.store.read j = Entry.zero := by
  by_cases hne : t.store.read j = s.store.read j
  · rw [hne, hzero]
  · obtain ⟨-, ⟨v, hi⟩ | ⟨v, d, hi⟩ | ⟨-, -, -, hsweep⟩⟩ := onlySetFadeAndSweepWriteTheStore i s t j h hne
    · exact absurd hi (hset v)
    · exact absurd hi (hfade v d)
    · rw [hsweep, hzero, fadeEntry_zero]

/-- Settles O37: a performed word is the word of its instruction, so it names entry 0 only if it is one of the words
excluded; a refused word and an event write no zero entry, and reset restores the scene's. -/
theorem startCodeStaysZeroUnlessWritten : Obligations.StartCodeStaysZeroUnlessWritten := by
  intro s t a rest hin h hzero hscene hset hfade
  rw [step_cons hin] at h
  have hread : t.store.read 0 = Entry.zero := by
    rcases arrive_cases h with ⟨w, i, rfl, hw, -, hex⟩ | ⟨w, -, -, rfl⟩ | ⟨e, -, hex⟩ | ⟨-, rfl⟩
    · have hword := encode_of_decode hw
      exact exec_keeps_zero_entry hex hzero (fun v hi => hset v (by rw [← hi, hword]))
        fun v d hi => hfade v d (by rw [← hi, hword])
    · exact hzero
    · cases e <;> exact exec_keeps_zero_entry hex hzero nofun nofun
    · exact hscene
  exact ⟨hread, by rw [slotByte_eq, hread]; rfl⟩

end Sys2Proof.Machine
end

section
/-! PROOFS. The statements of 30_encoding.md: the decoder, the encoder and the opcode table agree, and what the host
port answers to every word. -/

namespace Sys2Proof

/-! ### Everything the decoder answers -/

/-- A word decodes by exactly one row of the operation codes (30_encoding.md R74), with the fields its format does not
use at zero (R72). -/
theorem decode_eq_ok_iff {w : OpWord} {i : Instr} :
    decode w = .ok i ↔
      (opField w = 1 ∧ (chField w = 0 ∧ valField w = 0 ∧ msField w = 0) ∧ .start = i) ∨
      (opField w = 2 ∧ (chField w = 0 ∧ valField w = 0 ∧ msField w = 0) ∧ .stop = i) ∨
      (opField w = 3 ∧ msField w = 0 ∧ .set (chField w) (valField w) = i) ∨
      (opField w = 4 ∧ .fade (chField w) (valField w) (msField w) = i) ∨
      (opField w = 8 ∧ (chField w = 0 ∧ valField w = 0 ∧ msField w = 0) ∧ .evTimer = i) ∨
      (opField w = 9 ∧ (chField w = 0 ∧ valField w = 0 ∧ msField w = 0) ∧ .evByte = i) := by
  unfold decode
  split
  case h_7 h1 h2 h3 h4 h8 h9 =>
    rw [eq_false h1, eq_false h2, eq_false h3, eq_false h4, eq_false h8, eq_false h9]
    simp
  all_goals simp [decodeFormatN_eq_ok_iff, decodeFormatCV_eq_ok_iff, *]

/-- The decoder's operands come from fields, so they fit them (R71). -/
theorem wellFormed_of_decode {w : OpWord} {i : Instr} (h : decode w = .ok i) : WellFormed i := by
  obtain ⟨-, hch, hval, hms⟩ := field_bounds w
  rcases decode_eq_ok_iff.1 h with ⟨-, -, rfl⟩ | ⟨-, -, rfl⟩ | ⟨-, -, rfl⟩ | ⟨-, rfl⟩ | ⟨-, -, rfl⟩ | ⟨-, -, rfl⟩
  · rfl
  · rfl
  · simpa [WellFormed, wellFormed] using ⟨hch, hval⟩
  · simpa [WellFormed, wellFormed] using ⟨⟨hch, hval⟩, hms⟩
  · rfl
  · rfl

/-- Settles O3: each field reads back what was packed, operation by operation. -/
theorem decodeOfEncodeIsIdentity : Obligations.DecodeOfEncodeIsIdentity := fun _ => decode_encode

/-- Settles O4: the operands are the word's fields, and the fields not used are zero, so packing them again gives the
word. -/
theorem encodeOfDecodeIsIdentity : Obligations.EncodeOfDecodeIsIdentity :=
  fun _ _ h => ⟨wellFormed_of_decode h, encode_of_decode h⟩

/-- Settles O1: each word evaluated. -/
theorem tableWordsDecode : Obligations.TableWordsDecode :=
  ⟨rfl, rfl, rfl, rfl, rfl, rfl, rfl, rfl, rfl, rfl⟩

/-! ### The rows of the opcode table, field by field -/

/-- Two words are the same when their four fields are. -/
theorem word_eq_iff_fields {v w : OpWord} :
    v = w ↔ opField v = opField w ∧ chField v = chField w ∧ valField v = valField w ∧ msField v = msField w := by
  constructor
  · rintro rfl; simp
  · rintro ⟨hop, hch, hval, hms⟩
    rw [← packWord_fields v, ← packWord_fields w, hop, hch, hval, hms]

/-- A mask acts on each field by itself. -/
theorem fields_and (v w : OpWord) :
    opField (v &&& w) = opField v &&& opField w ∧ chField (v &&& w) = chField v &&& chField w ∧
    valField (v &&& w) = valField v &&& valField w ∧ msField (v &&& w) = msField v &&& msField w := by
  simp [opField, chField, valField, msField, BitVec.extractLsb'_and]

/-- A full mask keeps a field. -/
theorem field_and_max (w : OpWord) :
    opField w &&& 15 = opField w ∧ chField w &&& 4095 = chField w ∧ valField w &&& 65535 = valField w ∧
    msField w &&& 65535 = msField w := by
  obtain ⟨hop, hch, hval, hms⟩ := field_bounds w
  exact ⟨Nat.and_two_pow_sub_one_of_lt_two_pow hop, Nat.and_two_pow_sub_one_of_lt_two_pow hch,
    Nat.and_two_pow_sub_one_of_lt_two_pow hval, Nat.and_two_pow_sub_one_of_lt_two_pow hms⟩

section
variable {w : OpWord} {m : String} (op : BitVec 4)

/-- A format-N row fixes all four fields (30_encoding.md R72). -/
theorem covers_formatN :
    OpcodeRow.covers ⟨m, packWord op 0 0 0, packWord 15 4095 65535 65535⟩ w = true ↔
      opField w = op.toNat ∧ chField w = 0 ∧ valField w = 0 ∧ msField w = 0 := by
  simp [OpcodeRow.covers, word_eq_iff_fields, fields_and, field_and_max]

/-- A format-CV row leaves `ch` and `val` free (R72). -/
theorem covers_formatCV :
    OpcodeRow.covers ⟨m, packWord op 0 0 0, packWord 15 0 0 65535⟩ w = true ↔
      opField w = op.toNat ∧ msField w = 0 := by
  simp [OpcodeRow.covers, word_eq_iff_fields, fields_and, field_and_max]

/-- A format-CVT row fixes the operation code alone (R72). -/
theorem covers_formatCVT :
    OpcodeRow.covers ⟨m, packWord op 0 0 0, packWord 15 0 0 0⟩ w = true ↔ opField w = op.toNat := by
  simp [OpcodeRow.covers, word_eq_iff_fields, fields_and, field_and_max]

end

/-- Which words decode to an operation of a given mnemonic (R72, R74). -/
theorem exists_decode_mnemonic_iff {w : OpWord} {m : String} :
    (∃ i, decode w = .ok i ∧ i.mnemonic = m) ↔
      (opField w = 1 ∧ (chField w = 0 ∧ valField w = 0 ∧ msField w = 0) ∧ "START" = m) ∨
      (opField w = 2 ∧ (chField w = 0 ∧ valField w = 0 ∧ msField w = 0) ∧ "STOP" = m) ∨
      (opField w = 3 ∧ msField w = 0 ∧ "SET" = m) ∨ (opField w = 4 ∧ "FADE" = m) ∨
      (opField w = 8 ∧ (chField w = 0 ∧ valField w = 0 ∧ msField w = 0) ∧ "EV.TIMER" = m) ∨
      (opField w = 9 ∧ (chField w = 0 ∧ valField w = 0 ∧ msField w = 0) ∧ "EV.BYTE" = m) := by
  simp [decode_eq_ok_iff, or_and_right, exists_or, Instr.mnemonic, and_assoc]

/-- Settles O5: each row's pattern and mask are packed from its format, and fix the fields that the decoder checks for
the row's mnemonic. -/
theorem decoderAgreesWithOpcodeTable : Obligations.DecoderAgreesWithOpcodeTable := by
  intro w r hr
  rw [exists_decode_mnemonic_iff]
  simp only [opcodeTable, List.mem_cons, List.not_mem_nil, or_false] at hr
  rcases hr with rfl | rfl | rfl | rfl | rfl | rfl
  · exact (covers_formatN 1).trans (by simp)
  · exact (covers_formatN 2).trans (by simp)
  · exact (covers_formatCV 3).trans (by simp)
  · exact (covers_formatCVT 4).trans (by simp)
  · exact (covers_formatN 8).trans (by simp)
  · exact (covers_formatN 9).trans (by simp)

end Sys2Proof

namespace Sys2Proof.Machine

open Sys2Proof

/-! ### The words that the host port takes -/

/-- Everything the host port takes: the four host commands, in their formats (30_encoding.md R75 steps 1 and 2). -/
theorem hostDecode_eq_some_iff_fields {w : OpWord} {i : Instr} :
    hostDecode w = some i ↔
      (opField w = 1 ∧ (chField w = 0 ∧ valField w = 0 ∧ msField w = 0) ∧ .start = i) ∨
      (opField w = 2 ∧ (chField w = 0 ∧ valField w = 0 ∧ msField w = 0) ∧ .stop = i) ∨
      (opField w = 3 ∧ msField w = 0 ∧ .set (chField w) (valField w) = i) ∨
      (opField w = 4 ∧ .fade (chField w) (valField w) (msField w) = i) := by
  rw [hostDecode_eq_some_iff, decode_eq_ok_iff]
  cases i <;> simp [Instr.context]

/-- A field that the operation's format does not use is not zero (R72, R75 step 2). -/
def WrongFormat (w : OpWord) : Prop :=
  ((opField w = 1 ∨ opField w = 2) ∧ ¬ (chField w = 0 ∧ valField w = 0 ∧ msField w = 0)) ∨
    (opField w = 3 ∧ msField w ≠ 0)

/-- Step 1 of R75: an operation code that is no host command's. -/
theorem hostDecode_of_illegal_op {w : OpWord}
    (h : ¬ (opField w = 1 ∨ opField w = 2 ∨ opField w = 3 ∨ opField w = 4)) : hostDecode w = none := by
  refine Option.eq_none_iff_forall_ne_some.2 fun i hi => h ?_
  rcases hostDecode_eq_some_iff_fields.1 hi with ⟨hop, -⟩ | ⟨hop, -⟩ | ⟨hop, -⟩ | ⟨hop, -⟩ <;> simp [hop]

/-- Step 2 of R75: a field that must be zero is not. -/
theorem hostDecode_of_wrong_format {w : OpWord} (h : WrongFormat w) : hostDecode w = none := by
  refine Option.eq_none_iff_forall_ne_some.2 fun i hi => ?_
  rcases hostDecode_eq_some_iff_fields.1 hi with ⟨hop, hzero, -⟩ | ⟨hop, hzero, -⟩ | ⟨hop, hms, -⟩ | ⟨hop, -⟩
  · simp [WrongFormat, hop, hzero] at h
  · simp [WrongFormat, hop, hzero] at h
  · simp [WrongFormat, hop, hms] at h
  · simp [WrongFormat, hop] at h

/-- The words that steps 1 and 2 of R75 let through are operations. -/
theorem hostDecode_of_format {w : OpWord} (hop : opField w = 1 ∨ opField w = 2 ∨ opField w = 3 ∨ opField w = 4)
    (hfmt : ¬ WrongFormat w) : ∃ i, hostDecode w = some i := by
  simp only [hostDecode_eq_some_iff_fields]
  rcases hop with h | h | h | h
  · exact ⟨.start, .inl ⟨h, by simpa [WrongFormat, h] using hfmt, rfl⟩⟩
  · exact ⟨.stop, .inr (.inl ⟨h, by simpa [WrongFormat, h] using hfmt, rfl⟩)⟩
  · exact ⟨_, .inr (.inr (.inl ⟨h, by simpa [WrongFormat, h] using hfmt, rfl⟩))⟩
  · exact ⟨_, .inr (.inr (.inr ⟨h, rfl⟩))⟩

/-- Bit 47 of every instruction's word is its class (R74). -/
theorem encode_bit47 (i : Instr) : (encode i)[47] = decide (i.context = .interrupt) := by
  cases i with
  | start => exact Laws.ClassBit.start
  | stop => exact Laws.ClassBit.stop
  | set c v => exact Laws.ClassBit.set c v
  | fade c v t => exact Laws.ClassBit.fade c v t
  | evTimer => exact Laws.ClassBit.evTimer
  | evByte => exact Laws.ClassBit.evByte

/-- A word the port takes is the word of a foreground operation, whose bit 47 is 0 (R78). -/
theorem hostDecode_of_bit47 {w : OpWord} (h : w[47] = true) : hostDecode w = none := by
  refine Option.eq_none_iff_forall_ne_some.2 fun i hi => ?_
  obtain ⟨hw, hctx⟩ := hostDecode_eq_some_iff.1 hi
  have hbit : w[47] = decide (i.context = .interrupt) := encode_of_decode hw ▸ encode_bit47 i
  simp [h, hctx] at hbit

/-! ### The step of a host word -/

section
variable {s : State} {w : OpWord} {rest : List Input}

/-- A word that the host port does not take is answered `ERR_ILLEGAL`. -/
theorem step_cmd_illegal (hin : s.inputs = .cmd w :: rest) (hw : hostDecode w = none) :
    step s = answered s rest .errIllegal := by
  rw [step_cons hin, arrive, hw]; rfl

/-- A word that the host port takes is its operation. -/
theorem step_cmd {i : Instr} (hin : s.inputs = .cmd w :: rest) (hw : hostDecode w = some i) :
    step s = exec i (s.setInputs rest) := by
  rw [step_cons hin, arrive, hw]

/-- The step of a SET or FADE word is a host write at the fields `ch` and `val` (43_host_commands.md R173, R174). -/
theorem step_cmd_hostWrite (hin : s.inputs = .cmd w :: rest) (hfmt : ¬ WrongFormat w)
    (hop : opField w = 3 ∨ opField w = 4) :
    ∃ f, step s = hostWrite (chField w) (valField w) f (s.setInputs rest) := by
  obtain ⟨i, hi⟩ := hostDecode_of_format (.inr (.inr hop)) hfmt
  have hstep := step_cmd hin hi
  rcases hostDecode_eq_some_iff_fields.1 hi with ⟨h, -, rfl⟩ | ⟨h, -, rfl⟩ | ⟨-, -, rfl⟩ | ⟨-, rfl⟩
  · omega
  · omega
  · exact ⟨_, hstep⟩
  · exact ⟨_, hstep⟩

/-- Step 3 of R75: an index that names no entry. -/
theorem step_cmd_errChannel (hin : s.inputs = .cmd w :: rest) (hfmt : ¬ WrongFormat w)
    (hch : (opField w = 3 ∨ opField w = 4) ∧ chField w > 512) : step s = answered s rest .errChannel := by
  obtain ⟨f, hf⟩ := step_cmd_hostWrite hin hfmt hch.1
  rw [hf, hostWrite_eq, if_pos hch.2]; rfl

/-- Step 4 of R75: a level above the largest, checked after the index. -/
theorem step_cmd_errValue (hin : s.inputs = .cmd w :: rest) (hfmt : ¬ WrongFormat w)
    (hch : ¬ ((opField w = 3 ∨ opField w = 4) ∧ chField w > 512))
    (hval : (opField w = 3 ∨ opField w = 4) ∧ valField w > 255) : step s = answered s rest .errValue := by
  obtain ⟨f, hf⟩ := step_cmd_hostWrite hin hfmt hval.1
  rw [hf, hostWrite_eq, if_neg fun hc => hch ⟨hval.1, hc⟩, if_pos hval.2]; rfl

end

/-- START answers `OK` in every state (R171). -/
theorem exec_start_ok (s : State) : ∃ t, exec .start s = .next t ∧ t.resps = s.resps ++ [.ok] := by
  by_cases hs : s.state = .idle
  · exact ⟨_, exec_start_idle hs, by simp [actInit]⟩
  · exact ⟨_, exec_start_running hs, by simp⟩

/-- STOP answers `OK` in every state (R172). -/
theorem exec_stop_ok (s : State) : ∃ t, exec .stop s = .next t ∧ t.resps = s.resps ++ [.ok] :=
  ⟨_, rfl, by simp⟩

/-- A host write with legal operands answers `OK` (R173, R174). -/
theorem hostWrite_ok {c v : Nat} (f : Entry → Entry) (s : State) (hc : c ≤ 512) (hv : v ≤ 255) :
    ∃ t, hostWrite c v f s = .next t ∧ t.resps = s.resps ++ [.ok] := by
  rw [hostWrite_eq, if_neg (by omega), if_neg (by omega)]
  exact ⟨_, rfl, rfl⟩

/-- An operation that the port takes, with operands that pass the checks, answers `OK`. -/
theorem exec_ok_of_checked {w : OpWord} {i : Instr} (s : State) (hi : hostDecode w = some i)
    (hch : ¬ ((opField w = 3 ∨ opField w = 4) ∧ chField w > 512))
    (hval : ¬ ((opField w = 3 ∨ opField w = 4) ∧ valField w > 255)) :
    ∃ t, exec i s = .next t ∧ t.resps = s.resps ++ [.ok] := by
  rcases hostDecode_eq_some_iff_fields.1 hi with ⟨-, -, rfl⟩ | ⟨-, -, rfl⟩ | ⟨h, -, rfl⟩ | ⟨h, rfl⟩
  · exact exec_start_ok s
  · exact exec_stop_ok s
  · exact hostWrite_ok _ s (by omega) (by omega)
  · exact hostWrite_ok _ s (by omega) (by omega)

/-- A word that passes the checks is performed and answered `OK` (30_encoding.md R75 step 5). -/
theorem step_cmd_performed {s : State} {w : OpWord} {rest : List Input} (hin : s.inputs = .cmd w :: rest)
    (hop : opField w = 1 ∨ opField w = 2 ∨ opField w = 3 ∨ opField w = 4) (hfmt : ¬ WrongFormat w)
    (hch : ¬ ((opField w = 3 ∨ opField w = 4) ∧ chField w > 512))
    (hval : ¬ ((opField w = 3 ∨ opField w = 4) ∧ valField w > 255)) :
    ∃ t, step s = .next t ∧ t.resps = s.resps ++ [.ok] ∧
      (opField w = 1 → exec .start (s.setInputs rest) = .next t) ∧
      (opField w = 2 → exec .stop (s.setInputs rest) = .next t) ∧
      (opField w = 3 → exec (.set (chField w) (valField w)) (s.setInputs rest) = .next t) ∧
      (opField w = 4 → exec (.fade (chField w) (valField w) (msField w)) (s.setInputs rest) = .next t) := by
  obtain ⟨i, hi⟩ := hostDecode_of_format hop hfmt
  obtain ⟨t, hex, hok⟩ := exec_ok_of_checked (s.setInputs rest) hi hch hval
  refine ⟨t, (step_cmd hin hi).trans hex, hok, ?_⟩
  rcases hostDecode_eq_some_iff_fields.1 hi with ⟨h, -, rfl⟩ | ⟨h, -, rfl⟩ | ⟨h, -, rfl⟩ | ⟨h, rfl⟩ <;>
    simpa [h] using hex

/-- Settles O9: the decoder refuses by steps 1 and 2, the host write by steps 3 and 4, and what is left is performed. -/
theorem hostWordCheckingOrder : Obligations.HostWordCheckingOrder := by
  intro s w rest hin op ch val ms wrongFormat s'
  split_ifs with hop hfmt hch hval
  · exact step_cmd_illegal hin (hostDecode_of_wrong_format hfmt)
  · exact step_cmd_errChannel hin hfmt hch
  · exact step_cmd_errValue hin hfmt hch hval
  · exact step_cmd_performed hin hop hfmt hch hval
  · exact step_cmd_illegal hin (hostDecode_of_illegal_op hop)

/-- Settles O11: the port takes no word with bit 47 set, a trace word of an event is its pulse, and an event's frame
keeps the answers. -/
theorem hostCannotInjectEvents : Obligations.HostCannotInjectEvents := by
  obtain ⟨-, -, -, -, htimer, hbyte, -⟩ := tableWordsDecode
  have hkeep (e : Event) (s t : State) (h : exec e.instr s = .next t) : t.resps = s.resps := by
    obtain ⟨-, hresps, -⟩ := eventFrame e s t h
    exact hresps
  exact ⟨fun s w rest hin hbit => step_cmd_illegal hin (hostDecode_of_bit47 hbit),
    traceInput_of_event (e := .timerExpired) htimer, traceInput_of_event (e := .byteTransmitted) hbyte,
    fun s t h => h.elim (hkeep .timerExpired s t) (hkeep .byteTransmitted s t)⟩

/-- Settles O2: the words and fields evaluated; the two refusals are steps 3 and 4 of the checking order. -/
theorem workedEncodingsAndRefusals : Obligations.WorkedEncodingsAndRefusals := by
  refine ⟨rfl, rfl, rfl, rfl, rfl, rfl, rfl, rfl, rfl, rfl, rfl, rfl, fun s rest => ⟨fun hin => ?_, fun hin => ?_⟩⟩
  · simpa using hostWordCheckingOrder s _ rest hin
  · simpa using hostWordCheckingOrder s _ rest hin

end Sys2Proof.Machine
end

section
/-! PROOFS. The statements of 40_fsm_sequencer.md about one event: its bookkeeping, its transition, and the action of
the state it enters, each said once for a free lock, and from these the whole next state. -/

namespace Sys2Proof.Machine

open Sys2Proof

/-! ### An event's bookkeeping, and an event that is ignored -/

/-- EV.TIMER's bookkeeping writes its flag and the time, whether or not the timer was armed (R91). -/
theorem eventNoted_timer (s : State) :
    s.eventNoted .timerExpired = { s with tmrArmed := false, vtimeUs := timeAfterTimer s } := by
  rw [State.eventNoted, State.timerFired, timeAfterTimer]
  cases h : s.tmrArmed with
  | true => rfl
  | false => exact congrArg (fun b => { s with tmrArmed := b }) h

/-- EV.BYTE's bookkeeping writes its flag and the time, whether or not a byte was in flight (R92). -/
theorem eventNoted_byte (s : State) :
    s.eventNoted .byteTransmitted = { s with uartBusy := false, vtimeUs := timeAfterByte s } := by
  rw [State.eventNoted, State.byteSent, timeAfterByte]
  cases h : s.uartBusy with
  | true => rfl
  | false => exact congrArg (fun b => { s with uartBusy := b }) h

section
variable (e : Event) (s : State)

@[simp] theorem State.eventNoted_bit : (s.eventNoted e).bit = s.bit := by cases e <;> simp [State.eventNoted]
@[simp] theorem State.eventNoted_line : (s.eventNoted e).line = s.line := by cases e <;> simp [State.eventNoted]

end

/-- An event that the state does not accept is its bookkeeping alone (R112). -/
theorem exec_event_ignored {e : Event} {s : State} (h : transition s.cfg s.state e = .ignore) :
    exec e.instr s = .next (s.eventNoted e) := by
  rw [exec_event, deliver_ignored (by simpa using h)]

/-- Settles O29: the rows of the acceptance table that say "ignore", in the two modes. -/
theorem unexpectedEventsAreIgnored : Obligations.UnexpectedEventsAreIgnored := by
  intro s
  refine ⟨fun h => ?_, fun h => ?_⟩
  · have hign : transition s.cfg s.state .timerExpired = .ignore := by
      rcases h with h | h | ⟨k, h⟩ | ⟨h | h, hm⟩ <;> simp [transition, byteStateTimer, *]
    exact (exec_event_ignored hign).trans (congrArg _ (eventNoted_timer s))
  · have hign : transition s.cfg s.state .byteTransmitted = .ignore := by
      rcases h with h | hm
      · cases hs : s.state <;> simp [hs, transition] at h ⊢
      · cases hs : s.state <;> simp [transition, byteStateByte, hm]
    exact (exec_event_ignored hign).trans (congrArg _ (eventNoted_byte s))

/-! ### The lock around an action -/

/-- The byte transmitter does not look at the lock or write it. -/
theorem txAction_setLock (s : State) (b : Bool) :
    txAction (s.setLock b) = andThen (txAction s) fun t => .next (t.setLock b) := by
  have hlatch : latchByte (s.setLock b) = andThen (latchByte s) fun t => .next (t.setLock b) := by
    unfold latchByte readEntry
    by_cases hslot : s.slot.toNat ≤ channelCount <;> simp only [State.setLock_slot, hslot, if_true, if_false] <;> rfl
  unfold txAction
  rw [hlatch, State.setLock_cfg, State.setLock_bit]
  cases s.cfg.txMode with
  | uart => cases latchByte s <;> rfl
  | bitbang =>
    by_cases hb : s.bit.toNat = 0
    · simp only [hb, if_true]
      cases latchByte s <;> rfl
    · by_cases hl : s.bit.toNat ≤ s.cfg.lastBit <;> simp only [hb, hl, if_true, if_false] <;> rfl

/-- No action looks at the lock or writes it. -/
theorem action_setLock (s : State) (b : Bool) :
    action (s.setLock b) = andThen (action s) fun t => .next (t.setLock b) := by
  have hmbb (u : State) : actMarkBeforeBreak (u.setLock b) = (actMarkBeforeBreak u).setLock b := by
    unfold actMarkBeforeBreak
    rw [State.setLock_stopReq]
    split <;> rfl
  cases hs : s.state <;> simp only [action, State.setLock_state, hs, andThen_next]
  case reserved => rfl
  case init | markAfterBreak | txStartMark | txMark => rfl
  case markBeforeBreak => rw [hmbb]
  case lineBreak => unfold actBreak; rw [State.setLock_cfg]; split <;> rfl
  case txStartCode | txByte => exact txAction_setLock s b
  case update => exact congrArg _ (hmbb ((s.setStore (fadeSweep s.store s.cfg.deltaMs)).setState .markBeforeBreak))

/-- With the lock free, the action under the lock is the action (60_exceptions.md R196). -/
theorem lockedAction_eq_action {s : State} (hlock : s.lock = false) : lockedAction s = action s := by
  rw [lockedAction, action_setLock]
  cases h : action s with
  | fault r => rfl
  | refused r => rfl
  | next t =>
    have ht : t.lock = false := (action_frame h).2.1.trans hlock
    simp only [andThen, State.setLock, ← ht]

/-- With the lock free, the second half of a delivery is the action. -/
theorem runAction_eq_action {s : State} (hlock : s.lock = false) : runAction s = action s := by
  simp [runAction, hlock, lockedAction_eq_action hlock]

/-! ### What an accepted event enters -/

/-- A transition that names its state: that state's action follows (R104 to R107, R110, R111). -/
theorem exec_goto {e : Event} {s : State} {p : FsmState} (hlock : s.lock = false)
    (h : transition s.cfg s.state e = .goto p) : exec e.instr s = action ((s.eventNoted e).setState p) := by
  simp [exec_event, deliver, h, applyTransition, runAction_eq_action, hlock]

/-- In `BITBANG` mode a byte state takes EV.TIMER as the end of a bit period (R109). -/
theorem transition_bitElapsed {s : State} (hs : s.state = .txStartCode ∨ s.state = .txByte)
    (hm : s.cfg.txMode = .bitbang) : transition s.cfg s.state .timerExpired = .bitElapsed := by
  rcases hs with hs | hs <;> simp [hs, transition, byteStateTimer, hm]

/-- In `UART` mode a byte state takes EV.BYTE as the end of the byte (R108). -/
theorem transition_byteDone {s : State} (hs : s.state = .txStartCode ∨ s.state = .txByte)
    (hm : s.cfg.txMode = .uart) : transition s.cfg s.state .byteTransmitted = .byteDone := by
  rcases hs with hs | hs <;> simp [hs, transition, byteStateByte, hm]

/-- The event that completes the byte in flight: the UART's own, or the end of the last stop bit (R108, R109). -/
def EndsByte (e : Event) (s : State) : Prop :=
  (s.state = .txStartCode ∨ s.state = .txByte) ∧
    ((s.cfg.txMode = .uart ∧ e = .byteTransmitted) ∨
      (s.cfg.txMode = .bitbang ∧ e = .timerExpired ∧ s.bit.toNat = s.cfg.lastBit))

/-- Byte completion does not take the lock, so the action follows it. -/
theorem andThen_byteDone {s : State} (hlock : s.lock = false) :
    andThen (byteDone s) runAction = andThen (byteDone s) action := by
  cases hd : byteDone s with
  | fault r => rfl
  | refused r => rfl
  | next u =>
    have hu : u.lock = s.lock := (applyTransition_frame (tr := .byteDone) hd).2.2.1
    exact runAction_eq_action (hu.trans hlock)

/-- The end of a byte, in both modes, is byte completion and then the action (41_byte_transmit.md R135). -/
theorem exec_endsByte {e : Event} {s : State} (hlock : s.lock = false) (h : EndsByte e s) :
    exec e.instr s = andThen (byteDone (s.eventNoted e)) action := by
  rw [exec_event, ← andThen_byteDone (by simpa using hlock)]
  obtain ⟨hs, ⟨hm, rfl⟩ | ⟨hm, rfl, hbit⟩⟩ := h
  · simp [deliver, transition_byteDone hs hm, applyTransition]
  · simp [deliver, transition_bitElapsed hs hm, applyTransition, bitElapsed, hbit]

/-- The registers after a byte that is not the frame's last: the state after it, the next slot, bit cell 0 (R135). -/
def nextSlot (s : State) : State := ((s.setState (afterByte s)).setSlot (s.slot + 1)).setBit 0

/-- A byte before slot 512 ends: the registers move on and the action of the state entered follows. -/
theorem exec_byteEnds {e : Event} {s : State} (hlock : s.lock = false) (h : EndsByte e s)
    (hslot : s.slot.toNat < channelCount) : exec e.instr s = action (nextSlot (s.eventNoted e)) := by
  rw [exec_endsByte hlock h, byteDone, State.eventNoted_slot, if_neg hslot.ne, if_pos hslot]
  simp [nextSlot]

/-- The byte of slot 512 ends: `Update`'s action follows (R113). -/
theorem exec_lastByteEnds {e : Event} {s : State} (hlock : s.lock = false) (h : EndsByte e s)
    (hslot : s.slot.toNat = channelCount) : exec e.instr s = .next (actUpdate (s.eventNoted e)) := by
  rw [exec_endsByte hlock h, byteDone, State.eventNoted_slot, if_pos hslot]
  rfl

/-! ### The actions of the states entered -/

/-- The start of a byte: latched from the entry `slot` names, then handed to the UART, or its first cell driven
(41_byte_transmit.md R130 to R132). -/
def startByte (s : State) : State :=
  match s.cfg.txMode with
  | .uart => uartSend (s.setTxbyte (s.store.read s.slot.toNat).sentByte)
  | .bitbang => driveCell (s.setTxbyte (s.store.read s.slot.toNat).sentByte)

section
variable (s : State)

@[simp] theorem startByte_state : (startByte s).state = s.state := by unfold startByte; split <;> rfl
@[simp] theorem startByte_slot : (startByte s).slot = s.slot := by unfold startByte; split <;> rfl

end

/-- A byte state entered at bit cell 0 starts a byte. -/
theorem action_startByte {s : State} (hs : s.state = .txStartCode ∨ s.state = .txByte)
    (hslot : s.slot.toNat ≤ channelCount) (hbit : s.cfg.txMode = .bitbang → s.bit.toNat = 0) :
    action s = .next (startByte s) := by
  have htx : action s = txAction s := by rcases hs with hs | hs <;> simp [action, hs]
  rw [htx, txAction_next_iff, startByte]
  cases hm : s.cfg.txMode with
  | uart => exact .inl ⟨rfl, hslot, rfl⟩
  | bitbang => exact .inr (.inl ⟨rfl, hbit hm, hslot, rfl⟩)

/-- A byte state at a later bit cell drives that cell (R133, R134). -/
theorem action_driveCell {s : State} (hs : s.state = .txStartCode ∨ s.state = .txByte)
    (hm : s.cfg.txMode = .bitbang) (hbit : s.bit.toNat ≠ 0) (hlast : s.bit.toNat ≤ s.cfg.lastBit) :
    action s = .next (driveCell s) := by
  have htx : action s = txAction s := by rcases hs with hs | hs <;> simp [action, hs]
  rw [htx, txAction_next_iff]
  exact .inr (.inr ⟨hm, hbit, hlast, rfl⟩)

/-- The state after a byte, with inter-byte marks (R135). -/
theorem afterByte_of_mark {s : State} (hmark : 0 < s.cfg.markUs.toNat) :
    afterByte s = if s.state = .txStartCode then .txStartMark else .txMark := if_pos hmark

/-- The state after a byte, back to back (R135). -/
theorem afterByte_of_noMark {s : State} (hmark : s.cfg.markUs.toNat = 0) : afterByte s = .txByte :=
  if_neg (by omega)

/-- `8 + STOP_BITS` is past the data bits and fits the register `bit` (10_state.md R23). -/
theorem lastBit_bounds (c : Config) : 8 < c.lastBit ∧ c.lastBit ≤ 10 := by
  unfold Config.lastBit Config.stopCount Config.dataBits
  split <;> decide

/-- The line is at mark in the cell a byte ends in (41_byte_transmit.md R134). -/
theorem cellLevel_lastBit (c : Config) (b : Byte) : cellLevel b c.lastBit = .mark := by
  obtain ⟨hlast, -⟩ := lastBit_bounds c
  rw [cellLevel, if_neg (by omega), if_neg (by rw [Config.dataBits]; omega)]

theorem toNat_bit_succ {s : State} (h : s.bit.toNat < s.cfg.lastBit) : (s.bit + 1).toNat = s.bit.toNat + 1 := by
  obtain ⟨-, hlast⟩ := lastBit_bounds s.cfg
  rw [BitVec.toNat_add_of_lt] <;> rw [show (1 : BitVec 4).toNat = 1 from rfl]
  omega

/-- A bit period before the last elapses: the next cell is driven (R109, first branch). -/
theorem exec_nextCell {s : State} (hlock : s.lock = false) (hs : s.state = .txStartCode ∨ s.state = .txByte)
    (hm : s.cfg.txMode = .bitbang) (hbit : s.bit.toNat < s.cfg.lastBit) :
    exec .evTimer s = .next (driveCell ((s.eventNoted .timerExpired).setBit (s.bit + 1))) := by
  have hsucc := toNat_bit_succ hbit
  have hact : action ((s.eventNoted .timerExpired).setBit (s.bit + 1)) =
      .next (driveCell ((s.eventNoted .timerExpired).setBit (s.bit + 1))) :=
    action_driveCell (by simpa using hs) (by simpa using hm)
      (by rw [State.setBit_bit, hsucc]; omega) (by rw [State.setBit_bit, hsucc]; simpa using hbit)
  rw [← hact]
  refine (exec_event .timerExpired s).trans ?_
  simp [deliver, transition_bitElapsed hs hm, applyTransition, bitElapsed, hbit, runAction_eq_action, hlock]

theorem toNat_slot_succ {n : BitVec 10} (h : n.toNat < channelCount) : (n + 1).toNat = n.toNat + 1 := by
  have h' : n.toNat < 512 := h
  rw [BitVec.toNat_add_of_lt] <;> rw [show (1 : BitVec 10).toNat = 1 from rfl]
  omega

/-- With inter-byte marks a byte is followed by its mark (R100, R102). -/
theorem action_nextSlot_mark {s : State} (hmark : 0 < s.cfg.markUs.toNat) :
    action (nextSlot s) = .next (actMark (nextSlot s)) := by
  have hs : (nextSlot s).state = if s.state = .txStartCode then .txStartMark else .txMark := afterByte_of_mark hmark
  unfold action
  split at hs <;> rw [hs]

/-- Back to back, a byte is followed by the next byte. -/
theorem action_nextSlot_byte {s : State} (hmark : s.cfg.markUs.toNat = 0) (hslot : s.slot.toNat < channelCount) :
    action (nextSlot s) = .next (startByte (nextSlot s)) :=
  action_startByte (.inr (afterByte_of_noMark hmark))
    ((toNat_slot_succ hslot).trans_le hslot) fun _ => rfl

/-! ### The whole next state of an accepted event -/

/-- `MarkBeforeBreak`'s action without a stop, in the fields that change: the frame's first mark (R96). -/
theorem actMarkBeforeBreak_start {s : State} (hstop : s.stopReq = false) :
    actMarkBeforeBreak s =
      { s with slot := 0, bit := 0, line := some .mark, tmrArmed := true, tmrDur := s.cfg.mbbUs,
               out := s.out ++ [.line .mark, .arm s.cfg.mbbUs] } := by
  simp [actMarkBeforeBreak, hstop, State.emit, State.arm, State.setSlot, State.setBit, Action.drives]

/-- `MarkBeforeBreak`'s action with a stop requested, in the fields that change (R96). -/
theorem actMarkBeforeBreak_stop {s : State} (hstop : s.stopReq = true) :
    actMarkBeforeBreak s = { s with state := .idle, stopReq := false } := if_pos hstop

/-- Settles O21: the transition into `MarkBeforeBreak`, whose action starts a frame or honours a stop. -/
theorem settleDelayElapses : Obligations.SettleDelayElapses := by
  intro s hlock hs
  have hexec : exec .evTimer s = .next (actMarkBeforeBreak ((s.eventNoted .timerExpired).setState .markBeforeBreak)) :=
    exec_goto (e := .timerExpired) (p := .markBeforeBreak) hlock (by rw [hs]; rfl)
  rw [eventNoted_timer] at hexec
  exact ⟨fun hstop => hexec.trans (congrArg _ (actMarkBeforeBreak_start hstop)),
    fun hstop => hexec.trans (congrArg _ (actMarkBeforeBreak_stop hstop))⟩

/-- Settles O22: the transition into `Break`, whose action is a break request or a pin write by mode. -/
theorem breakBegins : Obligations.BreakBegins := by
  intro s hlock hs
  have hexec : exec .evTimer s = .next (actBreak ((s.eventNoted .timerExpired).setState .lineBreak)) :=
    exec_goto (e := .timerExpired) (p := .lineBreak) hlock (by rw [hs]; rfl)
  rw [hexec, eventNoted_timer]
  cases hm : s.cfg.txMode <;> simp [actBreak, State.setState, hm, State.emit, State.arm, Action.drives]

/-- Settles O23: the transition into `MarkAfterBreak` and its action. -/
theorem breakEnds : Obligations.BreakEnds := by
  intro s hlock hs
  have hexec : exec .evTimer s = .next (actMarkAfterBreak ((s.eventNoted .timerExpired).setState .markAfterBreak)) :=
    exec_goto (e := .timerExpired) (p := .markAfterBreak) hlock (by rw [hs]; rfl)
  rw [hexec, eventNoted_timer]
  simp [actMarkAfterBreak, State.setState, State.emit, State.arm, Action.drives]

/-- A byte handed to the UART, in the fields that change (41_byte_transmit.md R131). -/
theorem startByte_uart {s : State} (hm : s.cfg.txMode = .uart) :
    startByte s = { s with txbyte := slotByte s s.slot.toNat, uartBusy := true,
                           out := s.out ++ [.send (slotByte s s.slot.toNat)] } := by
  simp only [startByte, hm, slotByte_eq]; rfl

/-- A byte's start bit driven, in the fields that change (R132). -/
theorem startByte_bitbang {s : State} (hm : s.cfg.txMode = .bitbang) (hbit : s.bit.toNat = 0) :
    startByte s = { s with txbyte := slotByte s s.slot.toNat, line := some .space, tmrArmed := true, tmrDur := 4,
                           out := s.out ++ [.line .space, .arm 4] } := by
  simp [startByte, hm, slotByte_eq, driveCell, hbit, cellLevel, State.emit, State.arm, State.setTxbyte, Action.drives,
    Config.bitUs, Config.baud]

/-- A mark elapses: the byte state that follows it starts the byte of `slot` (40_fsm_sequencer.md R107, R110, R111). -/
theorem exec_markElapses {s : State} {p : FsmState} (hlock : s.lock = false) (hslot : s.slot.toNat ≤ channelCount)
    (hp : (s.state = .markAfterBreak ∧ p = .txStartCode) ∨
      ((s.state = .txStartMark ∨ s.state = .txMark) ∧ p = .txByte))
    (hbit : s.cfg.txMode = .bitbang → s.bit.toNat = 0) :
    exec .evTimer s = .next (startByte ((s.eventNoted .timerExpired).setState p)) := by
  have htr : transition s.cfg s.state .timerExpired = .goto p := by
    rcases hp with ⟨hs, rfl⟩ | ⟨hs | hs, rfl⟩ <;> simp [hs, transition]
  have hp' : p = .txStartCode ∨ p = .txByte := hp.imp And.right And.right
  exact (exec_goto hlock htr).trans (action_startByte hp' (by simpa using hslot) (by simpa using hbit))

/-- Settles O24: the mark elapses and the byte starts, in the fields of each mode. -/
theorem markElapsesAndByteStarts : Obligations.MarkElapsesAndByteStarts := by
  intro s p hlock hslot hp
  refine ⟨fun hm => ?_, fun hm hbit => ?_⟩
  · rw [exec_markElapses hlock hslot hp (by simp [hm]), startByte_uart (by simpa using hm), eventNoted_timer]; rfl
  · rw [exec_markElapses hlock hslot hp fun _ => hbit, startByte_bitbang (by simpa using hm) (by simpa using hbit),
      eventNoted_timer]
    rfl

/-- A byte before slot 512 ends with inter-byte marks: the mark begins (R135). -/
theorem exec_byteEnds_mark {e : Event} {s : State} (hlock : s.lock = false) (h : EndsByte e s)
    (hslot : s.slot.toNat < channelCount) (hmark : 0 < s.cfg.markUs.toNat) :
    exec e.instr s = .next (actMark (nextSlot (s.eventNoted e))) :=
  (exec_byteEnds hlock h hslot).trans (action_nextSlot_mark (by simpa using hmark))

/-- A byte before slot 512 ends back to back: the next byte begins (R135). -/
theorem exec_byteEnds_noMark {e : Event} {s : State} (hlock : s.lock = false) (h : EndsByte e s)
    (hslot : s.slot.toNat < channelCount) (hmark : s.cfg.markUs.toNat = 0) :
    exec e.instr s = .next (startByte (nextSlot (s.eventNoted e))) :=
  (exec_byteEnds hlock h hslot).trans (action_nextSlot_byte (by simpa using hmark) (by simpa using hslot))

/-- The mark's action after a byte, in the fields that change. -/
theorem actMark_nextSlot {s : State} (hmark : 0 < s.cfg.markUs.toNat) :
    actMark (nextSlot s) =
      { s with state := if s.state = .txStartCode then .txStartMark else .txMark, slot := s.slot + 1, bit := 0,
               tmrArmed := true, tmrDur := s.cfg.markUs, out := s.out ++ [.arm s.cfg.markUs] } := by
  rw [nextSlot, afterByte_of_mark hmark]; rfl

/-- The next byte handed to the UART back to back, in the fields that change. -/
theorem startByte_nextSlot_uart {s : State} (hm : s.cfg.txMode = .uart) (hmark : s.cfg.markUs.toNat = 0)
    (hslot : s.slot.toNat < channelCount) :
    startByte (nextSlot s) =
      { s with state := .txByte, slot := s.slot + 1, bit := 0, txbyte := slotByte s (s.slot.toNat + 1),
               uartBusy := true, out := s.out ++ [.send (slotByte s (s.slot.toNat + 1))] } := by
  rw [startByte_uart (s := nextSlot s) hm, ← toNat_slot_succ hslot, nextSlot, afterByte_of_noMark hmark]; rfl

/-- The next byte's start bit driven back to back, in the fields that change. -/
theorem startByte_nextSlot_bitbang {s : State} (hm : s.cfg.txMode = .bitbang) (hmark : s.cfg.markUs.toNat = 0)
    (hslot : s.slot.toNat < channelCount) :
    startByte (nextSlot s) =
      { s with state := .txByte, slot := s.slot + 1, bit := 0, txbyte := slotByte s (s.slot.toNat + 1),
               line := some .space, tmrArmed := true, tmrDur := 4, out := s.out ++ [.line .space, .arm 4] } := by
  rw [startByte_bitbang (s := nextSlot s) hm rfl, ← toNat_slot_succ hslot, nextSlot, afterByte_of_noMark hmark]; rfl

/-- Settles O26: the UART's event ends the byte; the mark or the next byte follows. -/
theorem uartByteCompletes : Obligations.UartByteCompletes := by
  intro s hlock hm hs hslot
  have hend : EndsByte .byteTransmitted s := ⟨hs, .inl ⟨hm, rfl⟩⟩
  refine ⟨fun hmark => (exec_byteEnds_mark hlock hend hslot hmark).trans ?_,
    fun hmark => (exec_byteEnds_noMark hlock hend hslot hmark).trans ?_⟩ <;> rw [eventNoted_byte]
  · exact congrArg _ (actMark_nextSlot hmark)
  · exact congrArg _ (startByte_nextSlot_uart hm hmark hslot)

/-- Settles O27: the end of the last stop bit ends the byte; the mark or the next start bit follows. -/
theorem bitbangByteCompletes : Obligations.BitbangByteCompletes := by
  intro s hlock hm hs hbit hslot
  have hend : EndsByte .timerExpired s := ⟨hs, .inr ⟨hm, rfl, hbit⟩⟩
  refine ⟨fun hmark => (exec_byteEnds_mark hlock hend hslot hmark).trans ?_,
    fun hmark => (exec_byteEnds_noMark hlock hend hslot hmark).trans ?_⟩ <;> rw [eventNoted_timer]
  · exact congrArg _ (actMark_nextSlot hmark)
  · exact congrArg _ (startByte_nextSlot_bitbang hm hmark hslot)

/-- `Update`'s action without a stop, in the fields that change: the sweep, then the next frame's first mark (R103,
R113). -/
theorem actUpdate_frame {s : State} (hstop : s.stopReq = false) :
    actUpdate s = { s with store := fadeSweep s.store s.cfg.deltaMs, state := .markBeforeBreak, slot := 0, bit := 0,
                           line := some .mark, tmrArmed := true, tmrDur := s.cfg.mbbUs,
                           out := s.out ++ [.line .mark, .arm s.cfg.mbbUs] } :=
  actMarkBeforeBreak_start (s := (s.setStore (fadeSweep s.store s.cfg.deltaMs)).setState .markBeforeBreak) hstop

/-- `Update`'s action with a stop requested, in the fields that change: the sweep, then `Idle` (R103, R96). -/
theorem actUpdate_stop {s : State} (hstop : s.stopReq = true) :
    actUpdate s = { s with store := fadeSweep s.store s.cfg.deltaMs, state := .idle, stopReq := false } :=
  actMarkBeforeBreak_stop (s := (s.setStore (fadeSweep s.store s.cfg.deltaMs)).setState .markBeforeBreak) hstop

/-- A sweep leaves what the statements call swept (42_fade_pipeline.md R150). -/
theorem sweptFrom_fadeSweep (m : Memory) (d : Millis) : sweptFrom m d (fadeSweep m d) := read_fadeSweep m d

/-- Settles O28: either event ends the byte of slot 512, and `Update`'s action sweeps once and goes on by `stop_req`. -/
theorem lastByteSweepsAndLoops : Obligations.LastByteSweepsAndLoops := by
  intro s i hlock hs hslot hi
  refine ⟨_, sweptFrom_fadeSweep s.store s.cfg.deltaMs, ?_⟩
  rcases hi with ⟨hm, rfl⟩ | ⟨hm, rfl, hbit⟩
  · have hexec := exec_lastByteEnds (e := .byteTransmitted) hlock ⟨hs, .inl ⟨hm, rfl⟩⟩ hslot
    rw [eventNoted_byte] at hexec
    exact ⟨fun hstop => hexec.trans (congrArg _ (actUpdate_frame hstop)),
      fun hstop => hexec.trans (congrArg _ (actUpdate_stop hstop))⟩
  · have hexec := exec_lastByteEnds (e := .timerExpired) hlock ⟨hs, .inr ⟨hm, rfl, hbit⟩⟩ hslot
    rw [eventNoted_timer] at hexec
    exact ⟨fun hstop => hexec.trans (congrArg _ (actUpdate_frame hstop)),
      fun hstop => hexec.trans (congrArg _ (actUpdate_stop hstop))⟩

/-! ### Positions outside their ranges -/

/-- A byte cannot start at a slot that names no entry (20_memory.md R54; log 9). -/
theorem action_startByte_fault {s : State} (hs : s.state = .txStartCode ∨ s.state = .txByte)
    (hslot : channelCount < s.slot.toNat) (hbit : s.cfg.txMode = .uart ∨ s.bit.toNat = 0) :
    action s = .fault .noSuchEntry := by
  have hlatch : latchByte s = .fault .noSuchEntry := if_neg hslot.not_ge
  have htx : action s = txAction s := by rcases hs with hs | hs <;> simp [action, hs]
  rw [htx, txAction, hlatch]
  cases hm : s.cfg.txMode with
  | uart => rfl
  | bitbang => exact if_pos (hbit.resolve_left (by simp [hm]))

/-- A byte cannot end at a slot that names no entry (log 9). -/
theorem exec_endsByte_refused {e : Event} {s : State} (hlock : s.lock = false) (h : EndsByte e s)
    (hslot : channelCount < s.slot.toNat) : exec e.instr s = .refused .slotOutOfRange := by
  rw [exec_endsByte hlock h, byteDone, State.eventNoted_slot, if_neg hslot.ne', if_neg hslot.not_gt]
  rfl

/-- A bit period cannot end at a cell past the last stop bit (log 10). -/
theorem exec_bit_refused {s : State} (hs : s.state = .txStartCode ∨ s.state = .txByte)
    (hm : s.cfg.txMode = .bitbang) (hbit : s.cfg.lastBit < s.bit.toNat) :
    exec .evTimer s = .refused .bitOutOfRange := by
  have hrefused : bitElapsed (s.eventNoted .timerExpired) = .refused .bitOutOfRange := by
    rw [bitElapsed, State.eventNoted_bit, State.eventNoted_cfg, if_neg hbit.not_gt, if_neg hbit.ne']
  refine (exec_event .timerExpired s).trans ?_
  simp [deliver, transition_bitElapsed hs hm, applyTransition, hrefused, andThen]

/-- Settles O30: the start of a byte faults, the end of one and the end of a bit period are refused. -/
theorem positionsOutsideTheRangesStop : Obligations.PositionsOutsideTheRangesStop := by
  intro s hlock
  refine ⟨fun hslot hs hbit => ?_,
    fun hslot hs hm => exec_endsByte_refused (e := .byteTransmitted) hlock ⟨hs, .inl ⟨hm, rfl⟩⟩ hslot,
    fun hs hm hbit => exec_bit_refused hs hm hbit⟩
  obtain ⟨p, hp, htr⟩ : ∃ p, (p = .txStartCode ∨ p = .txByte) ∧
      transition s.cfg s.state .timerExpired = .goto p := by
    rcases hs with hs | hs | hs <;> simp [hs, transition]
  exact (exec_goto hlock htr).trans (action_startByte_fault hp (by simpa using hslot) (by simpa using hbit))

end Sys2Proof.Machine
end

section
/-! PROOFS. The statements of 40_fsm_sequencer.md R114: the invariants read state by state, what the outstanding event
does under them, and that every step keeps them. -/

namespace Sys2Proof.Machine

open Sys2Proof

/-! ### The invariants, state by state -/

/-- The event that a state accepts (R112), and so the one that is outstanding while the machine is in it (R114 (a) to
(c)). -/
def FsmState.awaits (c : Config) (p : FsmState) : Option Event :=
  match p with
  | .idle | .update | .reserved _ => none
  | .init | .markBeforeBreak | .lineBreak | .markAfterBreak | .txStartMark | .txMark => some .timerExpired
  | .txStartCode | .txByte =>
    match c.txMode with
    | .uart => some .byteTransmitted
    | .bitbang => some .timerExpired

/-- A state accepts exactly the event it waits for. -/
theorem transition_eq_ignore_iff {c : Config} {p : FsmState} {e : Event} :
    transition c p e = .ignore ↔ p.awaits c ≠ some e := by
  cases e <;> cases p
  case timerExpired.txStartCode | timerExpired.txByte | byteTransmitted.txStartCode | byteTransmitted.txByte =>
    cases hm : c.txMode <;> simp [transition, FsmState.awaits, byteStateTimer, byteStateByte, hm]
  all_goals simp [transition, FsmState.awaits]

/-- Each source is enabled exactly when its event is the one awaited (R114 (a) to (c)). -/
def SourcesOk (s : State) : Prop :=
  s.tmrArmed = decide (s.state.awaits s.cfg = some .timerExpired) ∧
    s.uartBusy = decide (s.state.awaits s.cfg = some .byteTransmitted)

theorem sourcesOk_iff {s : State} (hlegal : s.state.legal = true) :
    SourcesOk s ↔
      (s.state.waitsForTimer = true → s.tmrArmed = true ∧ s.uartBusy = false) ∧
      (s.state.sendsByte = true → s.cfg.txMode = .uart → s.uartBusy = true ∧ s.tmrArmed = false) ∧
      (s.state.sendsByte = true → s.cfg.txMode = .bitbang → s.tmrArmed = true ∧ s.uartBusy = false) ∧
      (s.state = .idle → s.tmrArmed = false ∧ s.uartBusy = false) := by
  unfold SourcesOk
  cases hs : s.state
  case txStartCode | txByte =>
    cases hm : s.cfg.txMode <;> simp [FsmState.awaits, FsmState.waitsForTimer, FsmState.sendsByte, hm, and_comm]
  case update | reserved => simp [hs, FsmState.legal, FsmState.waitsForTimer, FsmState.sendsByte] at hlegal
  all_goals simp [FsmState.awaits, FsmState.waitsForTimer, FsmState.sendsByte]

/-- The slots a state may hold; none for a state that no step ends in (R114 (d), (e)). -/
def SlotOk (p : FsmState) (n : Nat) : Prop :=
  match p with
  | .idle | .init => n ≤ channelCount
  | .markBeforeBreak | .lineBreak | .markAfterBreak | .txStartCode => n = 0
  | .txStartMark => n = 1
  | .txByte => 1 ≤ n ∧ n ≤ channelCount
  | .txMark => 2 ≤ n ∧ n ≤ channelCount
  | .update | .reserved _ => False

theorem slotOk_iff {p : FsmState} {n : Nat} :
    SlotOk p n ↔
      p.legal = true ∧ n ≤ channelCount ∧
      (p = .markBeforeBreak ∨ p = .lineBreak ∨ p = .markAfterBreak ∨ p = .txStartCode → n = 0) ∧
      (p = .txStartMark → n = 1) ∧ (p = .txByte → 1 ≤ n) ∧ (p = .txMark → 2 ≤ n) := by
  cases p <;> simp [SlotOk, FsmState.legal, FsmState.waitsForTimer, FsmState.sendsByte, channelCount] <;> omega

/-- The bit cells a state may hold: 0 in the phases of a frame, else up to the last stop bit (R114 (b), R23). -/
def BitOk (c : Config) (p : FsmState) (b : Nat) : Prop :=
  match p with
  | .idle | .init | .txStartCode | .txByte | .update | .reserved _ => b ≤ c.lastBit ∧ (c.txMode = .uart → b = 0)
  | .markBeforeBreak | .lineBreak | .markAfterBreak | .txStartMark | .txMark => b = 0

theorem bitOk_iff {c : Config} {p : FsmState} {b : Nat} :
    BitOk c p b ↔
      b ≤ c.lastBit ∧ (c.txMode = .uart → b = 0) ∧ (p.waitsForTimer = true → p ≠ .init → b = 0) := by
  cases p <;> simp [BitOk, FsmState.waitsForTimer] <;> omega

/-- The level of the line in a running state: low in the break, the cell's level in a bit-banged byte, else high
(R114 (f)). -/
def drivenLevel (s : State) : Level :=
  match s.state, s.cfg.txMode with
  | .lineBreak, _ => .space
  | .txStartCode, .bitbang | .txByte, .bitbang => cellLevel s.txbyte s.bit.toNat
  | _, _ => .mark

theorem lineLow_iff {s : State} : lineLow s = true ↔ drivenLevel s = .space := by
  unfold lineLow drivenLevel
  cases s.state <;> cases s.cfg.txMode <;> simp [FsmState.sendsByte]

/-- The line holds the level last driven; `Idle` leaves it at mark, or unspecified (R114 (f)). -/
def LineOk (s : State) : Prop :=
  if s.state = .idle then s.line ≠ some .space else s.line = some (drivenLevel s)

theorem lineOk_iff {s : State} :
    LineOk s ↔ (s.line = some .space ↔ lineLow s = true) ∧ (s.state ≠ .idle → s.line ≠ none) := by
  rw [lineLow_iff, LineOk]
  by_cases hs : s.state = .idle
  · simp [hs, drivenLevel]
  · rw [if_neg hs]
    match s.line, drivenLevel s with
    | none, _ => simp [hs]
    | some .space, .space | some .space, .mark | some .mark, .space | some .mark, .mark => simp

/-- What the invariants say in every state alike: the lock, the store and the scene. -/
def StoreOk (s : State) : Prop :=
  s.lock = false ∧ s.store.wf = true ∧ s.store.levelsOk = true ∧ s.cfg.sceneOk = true

/-- The position of the sequencer, and the line that goes with it. -/
def PositionOk (s : State) : Prop :=
  SlotOk s.state s.slot.toNat ∧ BitOk s.cfg s.state s.bit.toNat ∧ LineOk s ∧
    (s.state = .idle → s.stopReq = false) ∧ (s.state = .txStartMark ∨ s.state = .txMark → 0 < s.cfg.markUs.toNat)

/-- The invariants, read state by state. -/
def InvByState (s : State) : Prop := StoreOk s ∧ SourcesOk s ∧ PositionOk s

/-- The invariants read state by state are the invariants of R114. -/
theorem inv_iff_byState {s : State} : Inv s ↔ InvByState s := by
  constructor
  · intro h
    have hidle : s.state = .idle → s.tmrArmed = false ∧ s.uartBusy = false := fun hs =>
      ⟨(h.idleQuiet hs).1, (h.idleQuiet hs).2.1⟩
    exact ⟨⟨h.lockFree, h.storeCanonical, h.storeLevels, h.sceneLevels⟩,
      (sourcesOk_iff h.legalState).2 ⟨h.timerStates, h.uartByte, h.bitbangByte, hidle⟩,
      slotOk_iff.2 ⟨h.legalState, h.slotRange, h.slotZero, h.slotOne, h.slotByte, h.slotMark⟩,
      bitOk_iff.2 ⟨h.bitRange, h.bitUart, h.bitZero⟩, lineOk_iff.2 ⟨h.lineLevel, h.lineKnown⟩,
      fun hs => (h.idleQuiet hs).2.2, h.markStates⟩
  · rintro ⟨⟨hlock, hwf, hlevels, hscene⟩, hsources, hslot, hbit, hline, hstop, hmarks⟩
    obtain ⟨hlegal, hrange, hzero, hone, hbyte, hmark⟩ := slotOk_iff.1 hslot
    obtain ⟨hbitRange, hbitUart, hbitZero⟩ := bitOk_iff.1 hbit
    obtain ⟨hlevel, hknown⟩ := lineOk_iff.1 hline
    obtain ⟨htimer, huart, hbitbang, hidle⟩ := (sourcesOk_iff hlegal).1 hsources
    exact
      { timerStates := htimer, uartByte := huart, bitbangByte := hbitbang
        idleQuiet := fun hs => ⟨(hidle hs).1, (hidle hs).2, hstop hs⟩
        legalState := hlegal, lockFree := hlock, slotRange := hrange, slotZero := hzero, slotOne := hone
        slotByte := hbyte, slotMark := hmark, bitRange := hbitRange, bitUart := hbitUart, bitZero := hbitZero
        markStates := hmarks, lineLevel := hlevel, lineKnown := hknown, storeCanonical := hwf
        storeLevels := hlevels, sceneLevels := hscene }

/-! ### What the invariants say of the two sources -/

/-- A state that a step may end in awaits no event exactly when it is `Idle` (R114 (g)). -/
theorem awaits_eq_none_iff {c : Config} {p : FsmState} {n : Nat} (hslot : SlotOk p n) :
    p.awaits c = none ↔ p = .idle := by
  cases p
  case txStartCode | txByte => cases hm : c.txMode <;> simp [FsmState.awaits, hm]
  case update | reserved => exact hslot.elim
  all_goals simp [FsmState.awaits]

/-- The event awaited is a byte state's own, or the timer's (R114 (a), (b)). -/
theorem awaits_cases {c : Config} {p : FsmState} {e : Event} (h : p.awaits c = some e) :
    (p = .txStartCode ∨ p = .txByte) ∨ (p.waitsForTimer = true ∧ e = .timerExpired) := by
  cases p <;> simp_all [FsmState.awaits, FsmState.waitsForTimer]

/-- An event's source is enabled exactly when the state awaits the event. -/
theorem enabled_iff_awaits {s : State} (e : Event) (h : SourcesOk s) :
    (Input.event e).agent.enabled s = true ↔ s.state.awaits s.cfg = some e := by
  obtain ⟨htmr, hbusy⟩ := h
  cases e
  · simp [Input.agent, Agent.enabled, htmr]
  · simp [Input.agent, Agent.enabled, hbusy]

/-- A spurious event has no bookkeeping (R91, R92). -/
theorem eventNoted_of_disabled {s : State} {e : Event} (h : (Input.event e).agent.enabled s = false) :
    s.eventNoted e = s := by
  have h' : ¬ (Input.event e).agent.enabled s = true := by simp [h]
  cases e <;> exact if_neg h'

/-- Under the invariants an event whose source is not enabled changes nothing at all. -/
theorem exec_event_spurious {s : State} {e : Event} (h : SourcesOk s)
    (hoff : (Input.event e).agent.enabled s = false) : exec e.instr s = .next s := by
  have hign : transition s.cfg s.state e = .ignore :=
    transition_eq_ignore_iff.2 fun he => by simp [(enabled_iff_awaits e h).2 he] at hoff
  rw [exec_event_ignored hign, eventNoted_of_disabled hoff]

/-- Settles O31: a source that is not enabled is not awaited; in `BITBANG` mode no state awaits EV.BYTE. -/
theorem spuriousEventsChangeNothing : Obligations.SpuriousEventsChangeNothing := by
  intro s hinv
  obtain ⟨-, hsrc, -⟩ := inv_iff_byState.1 hinv
  have hbyte (hoff : s.uartBusy = false) : exec .evByte s = .next s :=
    exec_event_spurious (e := .byteTransmitted) hsrc hoff
  refine ⟨fun hoff => exec_event_spurious (e := .timerExpired) hsrc hoff, hbyte, fun hm => hbyte ?_⟩
  have hne : s.state.awaits s.cfg ≠ some .byteTransmitted := by
    cases hs : s.state <;> simp [FsmState.awaits, hm]
  simpa [hne] using hsrc.2

/-- Settles O45: a running state awaits one of the two events, `Idle` neither. -/
theorem exactlyOneEventOutstanding : Obligations.ExactlyOneEventOutstanding := by
  intro s hinv
  obtain ⟨-, ⟨htmr, hbusy⟩, hslot, -⟩ := inv_iff_byState.1 hinv
  rw [ne_eq, ← awaits_eq_none_iff (c := s.cfg) hslot, Agent.enabled, Agent.enabled, htmr, hbusy]
  generalize s.state.awaits s.cfg = awaited
  match awaited with
  | none => simp
  | some .timerExpired => simp
  | some .byteTransmitted => simp

/-- Reset's state has the invariants whenever the scene is legal (70_reset_and_hazards.md R230). -/
theorem inv_doReset {s : State} (hscene : s.cfg.sceneOk = true) : Inv (doReset s) := by
  obtain ⟨hwf, hlevels⟩ : s.cfg.initScene.wf = true ∧ s.cfg.initScene.levelsOk = true := by
    simpa [Config.sceneOk] using hscene
  exact inv_iff_byState.2 ⟨⟨rfl, hwf, hlevels, hscene⟩, ⟨rfl, rfl⟩, Nat.zero_le _, ⟨Nat.zero_le _, fun _ => rfl⟩,
    by simp [LineOk], fun _ => rfl, by simp⟩

/-- Settles O42: the state after reset is one that the reset step leaves, and its scene lists no entry. -/
theorem invariantsHoldAtReset : Obligations.InvariantsHoldAtReset := inv_doReset (s := State.reset) rfl

/-! ### What the outstanding event does -/

/-- The ways the machine goes on from `s`, whose outstanding event has just been taken, to `t` (R104 to R111, R113). -/
inductive Advances (s : State) : State → Prop where
  | frame : s.state = .init → Advances s (actMarkBeforeBreak (s.setState .markBeforeBreak))
  | lineBreak : s.state = .markBeforeBreak → Advances s (actBreak (s.setState .lineBreak))
  | markAfterBreak : s.state = .lineBreak → Advances s (actMarkAfterBreak (s.setState .markAfterBreak))
  | byte (p : FsmState) :
      (s.state = .markAfterBreak ∧ p = .txStartCode) ∨ ((s.state = .txStartMark ∨ s.state = .txMark) ∧ p = .txByte) →
      Advances s (startByte (s.setState p))
  | cell : s.state = .txStartCode ∨ s.state = .txByte → s.cfg.txMode = .bitbang → s.bit.toNat < s.cfg.lastBit →
      Advances s (driveCell (s.setBit (s.bit + 1)))
  | mark (e : Event) : EndsByte e s → s.slot.toNat < channelCount → 0 < s.cfg.markUs.toNat →
      Advances s (actMark (nextSlot s))
  | nextByte (e : Event) : EndsByte e s → s.slot.toNat < channelCount → s.cfg.markUs.toNat = 0 →
      Advances s (startByte (nextSlot s))
  | lastByte (e : Event) : EndsByte e s → s.slot.toNat = channelCount → Advances s (actUpdate s)

/-- The bookkeeping of an event does not end a byte or undo its end. -/
theorem EndsByte.eventNoted {e : Event} {s : State} (h : EndsByte e s) : EndsByte e (s.eventNoted e) := by
  simpa [EndsByte] using h

/-- The end of a byte moves on: to the mark, to the next byte, or through `Update`. -/
theorem exec_endsByte_advances {s : State} {e : Event} (hlock : s.lock = false) (h : EndsByte e s)
    (hslot : s.slot.toNat ≤ channelCount) : ∃ t, exec e.instr s = .next t ∧ Advances (s.eventNoted e) t := by
  rcases hslot.lt_or_eq with hlt | heq
  · rcases Nat.eq_zero_or_pos s.cfg.markUs.toNat with hmark | hmark
    · exact ⟨_, exec_byteEnds_noMark hlock h hlt hmark,
        .nextByte e h.eventNoted (by simpa using hlt) (by simpa using hmark)⟩
    · exact ⟨_, exec_byteEnds_mark hlock h hlt hmark,
        .mark e h.eventNoted (by simpa using hlt) (by simpa using hmark)⟩
  · exact ⟨_, exec_lastByteEnds hlock h heq, .lastByte e h.eventNoted (by simpa using heq)⟩

/-- The event that a byte state awaits moves on to the next cell or ends the byte. -/
theorem exec_byteState_advances {s : State} {e : Event} (hlock : s.lock = false)
    (hs : s.state = .txStartCode ∨ s.state = .txByte) (he : s.state.awaits s.cfg = some e)
    (hslot : s.slot.toNat ≤ channelCount) (hbit : s.bit.toNat ≤ s.cfg.lastBit) :
    ∃ t, exec e.instr s = .next t ∧ Advances (s.eventNoted e) t := by
  cases hm : s.cfg.txMode with
  | uart =>
    obtain rfl : .byteTransmitted = e := by rcases hs with hs | hs <;> simpa [hs, FsmState.awaits, hm] using he
    exact exec_endsByte_advances hlock ⟨hs, .inl ⟨hm, rfl⟩⟩ hslot
  | bitbang =>
    obtain rfl : .timerExpired = e := by rcases hs with hs | hs <;> simpa [hs, FsmState.awaits, hm] using he
    rcases hbit.lt_or_eq with hlt | heq
    · refine ⟨_, exec_nextCell hlock hs hm hlt, ?_⟩
      simpa using Advances.cell (s := s.eventNoted .timerExpired) (by simpa using hs) (by simpa using hm)
        (by simpa using hlt)
    · exact exec_endsByte_advances hlock ⟨hs, .inr ⟨hm, rfl, heq⟩⟩ hslot

/-- The event that a state awaits always moves the machine on (R114 (g)). -/
theorem exec_awaited_advances {s : State} {e : Event} (hlock : s.lock = false)
    (hpos : PositionOk s) (he : s.state.awaits s.cfg = some e) :
    ∃ t, exec e.instr s = .next t ∧ Advances (s.eventNoted e) t := by
  obtain ⟨hslot, hbit, -⟩ := hpos
  have hrange := (slotOk_iff.1 hslot).2.1
  rcases awaits_cases he with hs | ⟨hwaits, rfl⟩
  · exact exec_byteState_advances hlock hs he hrange (bitOk_iff.1 hbit).1
  have hmark (p : FsmState) (hp : (s.state = .markAfterBreak ∧ p = .txStartCode) ∨
      ((s.state = .txStartMark ∨ s.state = .txMark) ∧ p = .txByte)) (hb : s.bit.toNat = 0) :
      ∃ t, exec .evTimer s = .next t ∧ Advances (s.eventNoted .timerExpired) t :=
    ⟨_, exec_markElapses hlock hrange hp fun _ => hb, .byte p (by simpa using hp)⟩
  cases hs : s.state with
  | init =>
    exact ⟨_, exec_goto (e := .timerExpired) (p := .markBeforeBreak) hlock (by rw [hs]; rfl),
      .frame (by simpa using hs)⟩
  | markBeforeBreak =>
    exact ⟨_, exec_goto (e := .timerExpired) (p := .lineBreak) hlock (by rw [hs]; rfl),
      .lineBreak (by simpa using hs)⟩
  | lineBreak =>
    exact ⟨_, exec_goto (e := .timerExpired) (p := .markAfterBreak) hlock (by rw [hs]; rfl),
      .markAfterBreak (by simpa using hs)⟩
  | markAfterBreak => exact hmark _ (.inl ⟨hs, rfl⟩) (by simpa [BitOk, hs] using hbit)
  | txStartMark => exact hmark _ (.inr ⟨.inl hs, rfl⟩) (by simpa [BitOk, hs] using hbit)
  | txMark => exact hmark _ (.inr ⟨.inr hs, rfl⟩) (by simpa [BitOk, hs] using hbit)
  | idle | txStartCode | txByte | update | reserved => simp [hs, FsmState.waitsForTimer] at hwaits

/-- Every way of going on leaves for another state, another slot or another bit cell. -/
theorem Advances.position {s t : State} (h : Advances s t) :
    t.state ≠ s.state ∨ t.slot ≠ s.slot ∨ t.bit ≠ s.bit := by
  have hmbb (u : State) (hne : s.state ≠ .idle ∧ s.state ≠ .markBeforeBreak) (hu : u.state = .markBeforeBreak) :
      (actMarkBeforeBreak u).state ≠ s.state := by
    rcases actMarkBeforeBreak_cases u with ⟨-, hact⟩ | ⟨-, hact⟩ <;> rw [hact]
    · exact hne.1.symm
    · exact fun heq => hne.2 (heq.symm.trans hu)
  cases h with
  | frame hs => exact .inl (hmbb _ (by simp [hs]) rfl)
  | lineBreak hs => exact .inl (by unfold actBreak; split <;> simp [hs])
  | markAfterBreak hs => exact .inl (by simp [actMarkAfterBreak, hs])
  | byte p hp => exact .inl (by rcases hp with ⟨hs, rfl⟩ | ⟨hs | hs, rfl⟩ <;> simp [hs])
  | cell => exact .inr (.inr (by simp [driveCell]))
  | mark | nextByte => exact .inr (.inl (by simp [nextSlot, actMark]))
  | lastByte e hend hslot =>
    obtain ⟨hs, -⟩ := hend
    exact .inl (hmbb _ (by rcases hs with hs | hs <;> simp [hs]) rfl)

/-- Settles O46: the enabled source's event is the one awaited, and it moves the machine on. -/
theorem outstandingEventAdvancesThePosition : Obligations.OutstandingEventAdvancesThePosition := by
  intro s e rest hinv hin hen
  obtain ⟨⟨hlock, -⟩, hsrc, hpos⟩ := inv_iff_byState.1 hinv
  have he : s.state.awaits s.cfg = some e := (enabled_iff_awaits e hsrc).1 hen
  obtain ⟨t, hexec, hadv⟩ := exec_awaited_advances (s := s.setInputs rest) hlock hpos he
  exact ⟨t, (step_cons hin).trans hexec, by simpa using hadv.position⟩

/-! ### Every way of going on keeps the invariants -/

/-- No source is enabled: the outstanding event has just been taken. -/
def Quiet (s : State) : Prop := s.tmrArmed = false ∧ s.uartBusy = false

/-- Taking the outstanding event leaves no source enabled, and the store and the position as they were. -/
theorem InvByState.eventNoted {s : State} {e : Event} (h : InvByState s) (he : s.state.awaits s.cfg = some e) :
    StoreOk (s.eventNoted e) ∧ Quiet (s.eventNoted e) ∧ PositionOk (s.eventNoted e) := by
  obtain ⟨hstore, ⟨htmr, hbusy⟩, hpos⟩ := h
  refine ⟨by simpa [StoreOk] using hstore, ?_, by simpa [PositionOk, LineOk, drivenLevel] using hpos⟩
  cases e with
  | timerExpired => simp [Quiet, State.eventNoted, hbusy, he]
  | byteTransmitted => simp [Quiet, State.eventNoted, htmr, he]

/-- `MarkBeforeBreak`'s action, from the end of the settle delay or of a frame, into the frame's first mark or into
`Idle`. -/
theorem inv_actMarkBeforeBreak {s : State} (hstore : StoreOk s) (hquiet : Quiet s) (hs : s.state = .markBeforeBreak)
    (hslot : s.slot.toNat ≤ channelCount) (hbit : BitOk s.cfg .idle s.bit.toNat) (hline : s.line = some .mark) :
    InvByState (actMarkBeforeBreak s) := by
  cases hstop : s.stopReq with
  | true =>
    rw [actMarkBeforeBreak_stop hstop]
    exact ⟨hstore, hquiet, hslot, hbit, by simp [LineOk, hline], fun _ => rfl, by simp⟩
  | false =>
    rw [actMarkBeforeBreak_start hstop]
    exact ⟨hstore, by simp [SourcesOk, hs, FsmState.awaits, hquiet.2], by simp [SlotOk, hs], by simp [BitOk, hs],
      by simp [LineOk, hs, drivenLevel], by simp [hs], by simp [hs]⟩

/-- The start of a byte with the line at mark. -/
theorem inv_startByte {s : State} (hstore : StoreOk s) (hquiet : Quiet s)
    (hs : s.state = .txStartCode ∨ s.state = .txByte) (hslot : SlotOk s.state s.slot.toNat) (hbit : s.bit.toNat = 0)
    (hline : s.line = some .mark) : InvByState (startByte s) := by
  have hbitOk : BitOk s.cfg s.state s.bit.toNat := by rcases hs with hs | hs <;> simp [BitOk, hs, hbit]
  cases hm : s.cfg.txMode with
  | uart =>
    rw [startByte_uart hm]
    refine ⟨hstore, ?_, hslot, hbitOk, ?_⟩
    · rcases hs with hs | hs <;> simp [SourcesOk, hs, FsmState.awaits, hm, hquiet.1]
    · rcases hs with hs | hs <;> simp [LineOk, hs, drivenLevel, hm, hline]
  | bitbang =>
    rw [startByte_bitbang hm hbit]
    refine ⟨hstore, ?_, hslot, hbitOk, ?_⟩
    · rcases hs with hs | hs <;> simp [SourcesOk, hs, FsmState.awaits, hm, hquiet.2]
    · rcases hs with hs | hs <;> simp [LineOk, hs, drivenLevel, hm, hbit, cellLevel]

/-- The next bit cell of a byte. -/
theorem inv_driveCell {s : State} (hstore : StoreOk s) (hquiet : Quiet s)
    (hs : s.state = .txStartCode ∨ s.state = .txByte) (hm : s.cfg.txMode = .bitbang)
    (hslot : SlotOk s.state s.slot.toNat) (hbit : s.bit.toNat ≤ s.cfg.lastBit) : InvByState (driveCell s) := by
  refine ⟨hstore, ?_, hslot, ?_, ?_⟩
  · rcases hs with hs | hs <;> simp [SourcesOk, driveCell, hs, FsmState.awaits, hm, hquiet.2]
  · rcases hs with hs | hs <;> simp [BitOk, driveCell, hs, hm, hbit]
  · rcases hs with hs | hs <;> simp [LineOk, driveCell, hs, drivenLevel, hm, Action.drives]

/-- At the end of a byte the line is at mark: the UART's idle level, or the last stop bit (41_byte_transmit.md R134). -/
theorem EndsByte.line {e : Event} {s : State} (h : EndsByte e s) (hline : LineOk s) : s.line = some .mark := by
  obtain ⟨hs, ⟨hm, -⟩ | ⟨hm, -, hbit⟩⟩ := h
  · rcases hs with hs | hs <;> simpa [LineOk, hs, drivenLevel, hm] using hline
  · have hcell : cellLevel s.txbyte s.bit.toNat = .mark := hbit ▸ cellLevel_lastBit s.cfg s.txbyte
    rcases hs with hs | hs <;> simpa [LineOk, hs, drivenLevel, hm, hcell] using hline

/-- The inter-byte mark after a byte. -/
theorem inv_actMark_nextSlot {s : State} (hstore : StoreOk s) (hquiet : Quiet s)
    (hs : s.state = .txStartCode ∨ s.state = .txByte) (hslot : SlotOk s.state s.slot.toNat)
    (hlt : s.slot.toNat < channelCount) (hmark : 0 < s.cfg.markUs.toNat) (hline : s.line = some .mark) :
    InvByState (actMark (nextSlot s)) := by
  have hsucc := toNat_slot_succ hlt
  rw [actMark_nextSlot hmark]
  rcases hs with hs | hs <;> simp only [hs, if_true, if_false, reduceCtorEq, SlotOk] at hslot ⊢
  · exact ⟨hstore, by simp [SourcesOk, FsmState.awaits, hquiet.2], by simp [SlotOk, hslot], rfl,
      by simp [LineOk, drivenLevel, hline], by simp, by simpa using hmark⟩
  · exact ⟨hstore, by simp [SourcesOk, FsmState.awaits, hquiet.2], by simp only [SlotOk, hsucc]; omega, rfl,
      by simp [LineOk, drivenLevel, hline], by simp, by simpa using hmark⟩

/-- A sweep leaves no level above `255 << 8` (10_state.md R34 (a), 42_fade_pipeline.md R152). -/
theorem fadeEntry_level (e : Entry) (d : Millis) : (fadeEntry e d).cur.toNat ≤ maxFixed := by
  have htgt := e.tgt.isLt
  unfold fadeEntry
  split
  · simp only [Entry.target, BitVec.toNat_ofNat, maxFixed]; omega
  · obtain ⟨-, hle⟩ := clamp_range (x := e.cur.toNat + fadeStep e d) (lo := 0) (hi := maxFixed) (by decide)
    simp only [BitVec.toNat_ofNat, maxFixed] at hle ⊢
    omega

theorem levelsOk_fadeSweep {m : Memory} (d : Millis) (h : m.levelsOk = true) : (fadeSweep m d).levelsOk = true := by
  induction m with
  | nil => rfl
  | cons p rest ih =>
    obtain ⟨k, e⟩ := p
    simp only [Memory.levelsOk, List.all_cons, Bool.and_eq_true, decide_eq_true_eq] at h
    refine Memory.levelsOk_write (ih h.2) ?_
    split
    · exact fadeEntry_level e d
    · exact h.1

/-- Every way of going on keeps the invariants: what the state left says of the position is what the state entered
needs of it. -/
theorem Advances.inv {s t : State} (h : Advances s t) (hstore : StoreOk s) (hquiet : Quiet s) (hpos : PositionOk s) :
    InvByState t := by
  obtain ⟨hslot, hbit, hline, -, -⟩ := hpos
  have hbitIdle : BitOk s.cfg .idle s.bit.toNat := ⟨(bitOk_iff.1 hbit).1, (bitOk_iff.1 hbit).2.1⟩
  cases h with
  | frame hs =>
    exact inv_actMarkBeforeBreak hstore hquiet rfl (slotOk_iff.1 hslot).2.1 hbitIdle
      (by simpa [LineOk, hs, drivenLevel] using hline)
  | lineBreak hs =>
    unfold actBreak
    split <;> exact ⟨hstore, by simp [SourcesOk, FsmState.awaits, hquiet.2], by simpa [SlotOk, hs] using hslot,
      by simpa [BitOk, hs] using hbit, by simp [LineOk, drivenLevel, Action.drives], by simp, by simp⟩
  | markAfterBreak hs =>
    exact ⟨hstore, by simp [actMarkAfterBreak, SourcesOk, FsmState.awaits, hquiet.2],
      by simpa [actMarkAfterBreak, SlotOk, hs] using hslot, by simpa [actMarkAfterBreak, BitOk, hs] using hbit,
      by simp [actMarkAfterBreak, LineOk, drivenLevel, Action.drives], by simp [actMarkAfterBreak],
      by simp [actMarkAfterBreak]⟩
  | byte p hp =>
    have hline' : s.line = some .mark := by
      rcases hp with ⟨hs, -⟩ | ⟨hs | hs, -⟩ <;> simpa [LineOk, hs, drivenLevel] using hline
    have hbit' : s.bit.toNat = 0 := by
      rcases hp with ⟨hs, -⟩ | ⟨hs | hs, -⟩ <;> simpa [BitOk, hs] using hbit
    have hslot' : SlotOk p s.slot.toNat := by
      rcases hp with ⟨hs, rfl⟩ | ⟨hs | hs, rfl⟩ <;> simp only [hs, SlotOk, channelCount] at hslot ⊢ <;> omega
    exact inv_startByte hstore hquiet (hp.imp And.right And.right) hslot' hbit' hline'
  | cell hs hm hlt =>
    exact inv_driveCell hstore hquiet hs hm hslot (by rw [State.setBit_bit, toNat_bit_succ hlt]; exact hlt)
  | mark e hend hlt hmark => exact inv_actMark_nextSlot hstore hquiet hend.1 hslot hlt hmark (hend.line hline)
  | nextByte e hend hlt hmark =>
    have hs : (nextSlot s).state = .txByte := afterByte_of_noMark hmark
    refine inv_startByte hstore hquiet (.inr hs) ?_ rfl (hend.line hline)
    rw [hs]
    exact (toNat_slot_succ hlt).symm ▸ ⟨by omega, hlt⟩
  | lastByte e hend heq =>
    obtain ⟨hlock, hwf, hlevels, hscene⟩ := hstore
    exact inv_actMarkBeforeBreak ⟨hlock, wf_fadeSweep _ hwf, levelsOk_fadeSweep _ hlevels, hscene⟩ hquiet rfl heq.le
      hbitIdle (hend.line hline)

/-! ### Every step keeps the invariants -/

/-- An event is spurious, or it is the one awaited and the machine goes on. -/
theorem exec_event_inv {s t : State} {e : Event} (h : InvByState s) (hexec : exec e.instr s = .next t) :
    InvByState t := by
  cases hen : (Input.event e).agent.enabled s with
  | false =>
    rw [exec_event_spurious h.2.1 hen] at hexec
    cases hexec
    exact h
  | true =>
    have he : s.state.awaits s.cfg = some e := (enabled_iff_awaits e h.2.1).1 hen
    obtain ⟨u, hu, hadv⟩ := exec_awaited_advances h.1.1 h.2.2 he
    obtain ⟨hstore, hquiet, hpos⟩ := h.eventNoted he
    obtain rfl : u = t := by simpa [hu] using hexec
    exact hadv.inv hstore hquiet hpos

/-- START enters `Init` with the line at mark, or withdraws a stop (43_host_commands.md R171). -/
theorem exec_start_inv {s t : State} (h : InvByState s) (hexec : exec .start s = .next t) : InvByState t := by
  obtain ⟨hstore, hsrc, hslot, hbit, hline, hstop, hmarks⟩ := h
  by_cases hs : s.state = .idle
  · rw [exec_start_idle hs] at hexec
    cases hexec
    simp only [SourcesOk, SlotOk, BitOk, hs, FsmState.awaits] at hsrc hslot hbit
    exact ⟨by simpa [actInit, StoreOk] using hstore.2, by simpa [actInit, SourcesOk, FsmState.awaits] using hsrc.2,
      by simpa [actInit, SlotOk] using hslot, by simpa [actInit, BitOk] using hbit,
      by simp [actInit, LineOk, drivenLevel, Action.drives], by simp [actInit], by simp [actInit]⟩
  · rw [exec_start_running hs] at hexec
    cases hexec
    exact ⟨hstore, hsrc, hslot, hbit, hline, fun _ => rfl, hmarks⟩

/-- STOP sets `stop_req` in a running state only (R172). -/
theorem exec_stop_inv {s t : State} (h : InvByState s) (hexec : exec .stop s = .next t) : InvByState t := by
  cases hexec
  by_cases hs : s.state = .idle
  · rw [State.requestStop, if_pos hs]
    exact h
  · obtain ⟨hstore, hsrc, hslot, hbit, hline, -, hmarks⟩ := h
    rw [State.requestStop, if_neg hs]
    exact ⟨hstore, hsrc, hslot, hbit, hline, fun h => absurd h hs, hmarks⟩

/-- A host write keeps the store canonical and in range when the entry it writes is in range (R173, R174). -/
theorem hostWrite_inv {c v : Nat} {f : Entry → Entry} {s t : State} (h : InvByState s)
    (hf : ∀ x : Entry, v ≤ 255 → x.cur.toNat ≤ maxFixed → (f x).cur.toNat ≤ maxFixed)
    (hexec : hostWrite c v f s = .next t) : InvByState t := by
  have hstore : t.store.wf = true ∧ t.store.levelsOk = true := by
    obtain ⟨-, hwf, hlevels, -⟩ := h.1
    rw [hostWrite_store hexec]
    split
    · next hcv =>
      exact ⟨Memory.wf_write _ hwf hcv.1, Memory.levelsOk_write hlevels (hf _ hcv.2 (Memory.read_level hlevels c))⟩
    · exact ⟨hwf, hlevels⟩
  obtain ⟨m, r, rfl, -⟩ := hostWrite_cases hexec
  exact ⟨⟨h.1.1, hstore.1, hstore.2, h.1.2.2.2⟩, h.2⟩

/-- Every operation keeps the invariants. -/
theorem exec_inv {i : Instr} {s t : State} (h : InvByState s) (hexec : exec i s = .next t) : InvByState t := by
  cases i with
  | start => exact exec_start_inv h hexec
  | stop => exact exec_stop_inv h hexec
  | set c v =>
    refine hostWrite_inv h (fun x hv _ => ?_) hexec
    simp only [setEntry, levelToFixed, BitVec.toNat_ofNat, maxFixed]
    omega
  | fade c v d => exact hostWrite_inv (f := fun e => fadeTo e v d) h (fun _ _ hx => hx) hexec
  | evTimer => exact exec_event_inv (e := .timerExpired) h hexec
  | evByte => exact exec_event_inv (e := .byteTransmitted) h hexec

/-- Settles O43: a host word's operation or its refusal, an event, and reset each keep the invariants read state by
state. -/
theorem stepKeepsTheInvariants : Obligations.StepKeepsTheInvariants := by
  intro s t hinv hstep
  have h : InvByState s := inv_iff_byState.1 hinv
  cases hin : s.inputs with
  | nil => rw [step_nil hin] at hstep; cases hstep; exact hinv
  | cons a rest =>
    rw [step_cons hin] at hstep
    rcases arrive_cases hstep with ⟨w, i, -, -, -, hex⟩ | ⟨w, -, -, rfl⟩ | ⟨e, -, hex⟩ | ⟨-, rfl⟩
    · exact inv_iff_byState.2 (exec_inv (s := s.setInputs rest) h hex)
    · exact inv_iff_byState.2 h
    · exact inv_iff_byState.2 (exec_event_inv (s := s.setInputs rest) h hex)
    · exact inv_doReset hinv.sceneLevels

end Sys2Proof.Machine
end

section
/-! PROOFS. The whole-machine statements of 40_fsm_sequencer.md: the engine does not stop on its own, and the states
that no rule enters are left by reset alone. -/

namespace Sys2Proof.Machine

open Sys2Proof

/-! ### The engine does not stop on its own -/

/-- No transition names `Idle` (40_fsm_sequencer.md R104 to R111). -/
theorem transition_ne_idle {c : Config} {p q : FsmState} {e : Event} (h : transition c p e = .goto q) : q ≠ .idle := by
  have htimer : byteStateTimer c ≠ .goto .idle := by unfold byteStateTimer; split <;> simp
  have hbyte : byteStateByte c ≠ .goto .idle := by unfold byteStateByte; split <;> simp
  rintro rfl
  cases e <;> cases p <;> simp [transition, htimer, hbyte] at h

/-- No transition's register writes enter `Idle`. -/
theorem applyTransition_ne_idle {e : Event} {s t : State} (hs : s.state ≠ .idle)
    (h : applyTransition (transition s.cfg s.state e) s = .next t) : t.state ≠ .idle := by
  have hdone (h : byteDone s = .next t) : t.state ≠ .idle := by
    rcases byteDone_next_iff.1 h with ⟨-, rfl⟩ | ⟨-, rfl⟩
    · simp
    · show afterByte s ≠ .idle
      unfold afterByte; split
      · split <;> simp
      · simp
  cases htr : transition s.cfg s.state e with
  | ignore => rw [htr] at h; cases h; exact hs
  | goto p => rw [htr] at h; cases h; exact transition_ne_idle htr
  | byteDone => rw [htr] at h; exact hdone h
  | bitElapsed =>
    rw [htr] at h
    rcases bitElapsed_next_iff.1 h with ⟨-, rfl⟩ | ⟨-, h⟩
    · exact hs
    · exact hdone h

/-- Without a stop request no action enters `Idle` (R96). -/
theorem action_ne_idle {s t : State} (hs : s.state ≠ .idle) (hstop : s.stopReq = false) (h : action s = .next t) :
    t.state ≠ .idle := by
  have hmbb (u : State) (hu : u.state ≠ .idle) (hstop : u.stopReq = false) : (actMarkBeforeBreak u).state ≠ .idle := by
    rw [actMarkBeforeBreak_start hstop]; exact hu
  have htx (h : txAction s = .next t) : t.state ≠ .idle := by
    rcases txAction_next_iff.1 h with ⟨-, -, rfl⟩ | ⟨-, -, -, rfl⟩ | ⟨-, -, -, rfl⟩ <;> exact hs
  unfold action at h
  cases hp : s.state <;> simp only [hp, Host.Outcome.next.injEq, reduceCtorEq] at h
  case idle => exact absurd hp hs
  case markBeforeBreak => subst h; exact hmbb s hs hstop
  case update => subst h; exact hmbb _ (by simp) hstop
  case txStartCode | txByte => exact htx h
  case lineBreak => subst h; unfold actBreak; split <;> exact hs
  all_goals subst h; exact hs

/-- A running engine without a stop request stays so through every event. -/
theorem exec_event_running {e : Event} {s t : State} (hs : s.state ≠ .idle) (hstop : s.stopReq = false)
    (h : exec e.instr s = .next t) : t.state ≠ .idle ∧ t.stopReq = false := by
  rw [exec_event] at h
  have hstop' : t.stopReq = false := by
    rcases deliver_stopReq h with hkept | ⟨-, hcleared, -⟩
    · simpa [hstop] using hkept
    · exact hcleared
  refine ⟨?_, hstop'⟩
  have hs' : (s.eventNoted e).state ≠ .idle := by simpa using hs
  rcases deliver_cases h with ⟨-, rfl⟩ | ⟨-, -, htr⟩ | ⟨-, -, u, v, htr, hact, rfl⟩
  · exact hs'
  · exact applyTransition_ne_idle hs' htr
  · obtain ⟨-, -, -, hu, -⟩ := applyTransition_frame htr
    have hus : u.state ≠ .idle := applyTransition_ne_idle hs' htr
    have hv : v.state ≠ .idle := action_ne_idle (s := u.setLock true) hus (by simpa [hu] using hstop) hact
    exact hv

/-- Settles O39: of the host words only STOP requests a stop, and an event enters `Idle` only on a request. -/
theorem engineNeverStopsOnItsOwn : Obligations.EngineNeverStopsOnItsOwn := by
  intro s t a rest hin hrst hnostop hs hstop hstep
  rw [step_cons hin] at hstep
  rcases arrive_cases hstep with ⟨w, i, rfl, hw, hi, hex⟩ | ⟨w, -, -, rfl⟩ | ⟨e, -, hex⟩ | ⟨ha, -⟩
  · obtain ⟨-, -, -, -, -, -, -, hkeep, hkeepStop, -⟩ := hostCommandFrame _ _ _ hi hex
    have hstate : t.state = s.state := (hkeep (.inr hs)).1
    refine ⟨hstate ▸ hs, ?_⟩
    by_cases hstart : i = .start
    · subst hstart
      rw [exec_start_running (by exact hs)] at hex
      cases hex; rfl
    · have hne : i ≠ .stop := by rintro rfl; exact hnostop (congrArg Input.cmd (encode_of_decode hw).symm)
      exact (hkeepStop hstart hne).trans hstop
  · exact ⟨hs, hstop⟩
  · exact exec_event_running (s := s.setInputs rest) hs hstop hex
  · exact absurd ha hrst

/-- Settles O40: such a state accepts no event (R112), and every host word leaves a running state where it is. -/
theorem unreachableStatesStayPut : Obligations.UnreachableStatesStayPut := by
  intro s t a rest hin hrst hs hstep
  rw [step_cons hin] at hstep
  rcases arrive_cases hstep with ⟨w, i, -, -, hi, hex⟩ | ⟨w, -, -, rfl⟩ | ⟨e, -, hex⟩ | ⟨ha, -⟩
  · have hrunning : s.state ≠ .idle := by rcases hs with hs | ⟨k, hs⟩ <;> simp [hs]
    obtain ⟨-, -, -, -, -, -, -, hkeep, -⟩ := hostCommandFrame _ _ _ hi hex
    obtain ⟨hstate, -, -, -, hline, hout⟩ := hkeep (.inr hrunning)
    exact ⟨hstate, hout, hline⟩
  · exact ⟨rfl, rfl, rfl⟩
  · have hign : transition s.cfg s.state e = .ignore := by
      rw [transition_eq_ignore_iff]
      rcases hs with hs | ⟨k, hs⟩ <;> simp [hs, FsmState.awaits]
    rw [exec_event_ignored (by exact hign)] at hex
    cases hex
    simp
  · exact absurd ha hrst

end Sys2Proof.Machine
end

section
/-! PROOFS. The statements of 40_fsm_sequencer.md about a whole frame (R115, R116): its events counted, and the run
from `MarkBeforeBreak` through the break and the 513 bytes, in both modes and with and without inter-byte marks. -/

namespace Sys2Proof.Machine

open Sys2Proof

/-! ### The events of a frame, counted -/

theorem length_channelEvents (c : Config) (n : Nat) :
    (channelEvents c n).length = n * ((gapEvents c).length + (byteEvents c).length) := by
  induction n with
  | zero => simp [channelEvents]
  | succ n ih => simp only [channelEvents, List.length_append, ih]; ring

/-- Settles O57: three timer events, one byte, and 512 times a gap and a byte. -/
theorem eventsPerFrame : Obligations.EventsPerFrame := by
  intro c hstop
  have hlen : (frameEvents c).length =
      3 + (byteEvents c).length + 512 * ((gapEvents c).length + (byteEvents c).length) := by
    simp only [frameEvents, List.length_append, List.length_replicate, length_channelEvents]
  have hlast : c.lastBit = 10 := by simp [Config.lastBit, Config.stopCount, hstop, Config.dataBits]
  refine ⟨fun hm hmark => ?_, fun hm hmark => ?_, fun hm hmark => ?_, fun hm hmark => ?_⟩ <;>
    simp [hlen, byteEvents, gapEvents, hm, hmark, hlast]

/-! ### Runs over a list of arrivals -/

/-- The arrivals `l` carry the machine from `s` to `t`, whatever arrives after them. -/
inductive Runs : List Input → State → State → Prop where
  | nil (s : State) : Runs [] s s
  | cons {a : Input} {l : List Input} {s t u : State} :
      (∀ rest, arrive a (s.setInputs rest) = .next (t.setInputs rest)) → Runs l t u → Runs (a :: l) s u

theorem Runs.append {l m : List Input} {s t u : State} (h : Runs l s t) (h' : Runs m t u) : Runs (l ++ m) s u := by
  induction h with
  | nil s => exact h'
  | cons harrive _ ih => exact .cons harrive (ih h')

/-- One event. -/
theorem Runs.event {e : Event} {s t : State}
    (h : ∀ rest, exec e.instr (s.setInputs rest) = .next (t.setInputs rest)) : Runs [.event e] s t :=
  .cons h (.nil t)

theorem run_succ {n : Nat} {s t : State} (h : step s = .next t) :
    Sys2Proof.core.run (n + 1) s = Sys2Proof.core.run n t := by
  have hstep : Sys2Proof.core.step s = .next t := h
  simp only [Host.Core.run, hstep]

/-- A list of arrivals at the front of the schedule is run by as many steps of the machine. -/
theorem Runs.run {l : List Input} {s t : State} (h : Runs l s t) (rest : List Input) :
    Sys2Proof.core.run l.length (s.setInputs (l ++ rest)) = .next (t.setInputs rest) := by
  induction h with
  | nil s => rfl
  | @cons a l s t u harrive _ ih =>
    have hstep : step (s.setInputs (a :: l ++ rest)) = .next (t.setInputs (l ++ rest)) :=
      (step_cons rfl).trans (harrive (l ++ rest))
    exact (run_succ hstep).trans ih

/-! ### The stations of a frame -/

/-- The byte state of a slot. -/
def byteState (k : Nat) : FsmState := if k = 0 then .txStartCode else .txByte

/-- From the frame that began in `s`, the byte of slot `k` is about to start: `out` is the trace and `us` the time. -/
def State.enteringByte (s : State) (k : Nat) (b : Byte) (d : Micros) (out : List Action) (us : Nat) : State :=
  { s with state := byteState k, slot := BitVec.ofNat 10 k, bit := 0, txbyte := b, uartBusy := false,
           tmrArmed := false, tmrDur := d, line := some .mark, out := out, vtimeUs := us }

/-- The duration last armed when a byte ends: a bit period in `BITBANG` mode, what it was in `UART` mode. -/
def byteDur (c : Config) (d : Micros) : Micros :=
  match c.txMode with
  | .uart => d
  | .bitbang => 4

/-- The bit cell in which a byte ends. -/
def endBit (c : Config) : BitVec 4 :=
  match c.txMode with
  | .uart => 0
  | .bitbang => BitVec.ofNat 4 c.lastBit

/-- The event that ends a byte. -/
def endEvent (c : Config) : Event :=
  match c.txMode with
  | .uart => .byteTransmitted
  | .bitbang => .timerExpired

/-- The time of a byte's cells before the one it ends in, as far as the machine counts them. -/
def cellsUs (c : Config) : Nat :=
  match c.txMode with
  | .uart => 0
  | .bitbang => 4 * c.lastBit

/-- The byte of slot `k`, started with trace `out` at time `us`, waits for the event that ends it. -/
def State.endingByte (s : State) (k : Nat) (d : Micros) (out : List Action) (us : Nat) : State :=
  { s with state := byteState k, slot := BitVec.ofNat 10 k, bit := endBit s.cfg, txbyte := slotByte s k,
           uartBusy := decide (s.cfg.txMode = .uart), tmrArmed := decide (s.cfg.txMode = .bitbang),
           tmrDur := byteDur s.cfg d, line := some .mark, out := out ++ byteActions s.cfg (slotByte s k),
           vtimeUs := us + cellsUs s.cfg }

/-- The byte of slot `k` has ended, at time `us`, and byte completion has not yet run. -/
def State.endedByte (s : State) (k : Nat) (d : Micros) (out : List Action) (us : Nat) : State :=
  { s with state := byteState k, slot := BitVec.ofNat 10 k, bit := endBit s.cfg, txbyte := slotByte s k,
           uartBusy := false, tmrArmed := false, tmrDur := d, line := some .mark, out := out, vtimeUs := us }

/-- The events of a byte's cells, from its start to the cell it ends in. -/
def cellEvents (c : Config) : List Input :=
  match c.txMode with
  | .uart => []
  | .bitbang => List.replicate c.lastBit (.event .timerExpired)

/-- The events of a byte are those of its cells and the one that ends it (30_encoding.md R81). -/
theorem byteEvents_eq (c : Config) : byteEvents c = cellEvents c ++ [.event (endEvent c)] := by
  unfold byteEvents cellEvents endEvent
  cases c.txMode with
  | uart => rfl
  | bitbang => exact List.replicate_succ'

/-! ### The cells of a byte in `BITBANG` mode -/

/-- `n` bit cells after `s`, one bit period each (41_byte_transmit.md R133, R134). -/
def State.afterCells (s : State) (n : Nat) : State :=
  { s with bit := BitVec.ofNat 4 (s.bit.toNat + n), line := some (cellLevel s.txbyte (s.bit.toNat + n)),
           out := s.out ++ cellActions s.txbyte (s.bit.toNat + 1) n, vtimeUs := s.vtimeUs + 4 * n }

/-- The states that wait for a bit period of a byte to elapse. -/
structure InCell (s : State) : Prop where
  lockFree : s.lock = false
  bitbang : s.cfg.txMode = .bitbang
  sends : s.state = .txStartCode ∨ s.state = .txByte
  armed : s.tmrArmed = true
  duration : s.tmrDur = 4

/-- One bit period. -/
theorem exec_nextCell_eq {s : State} (h : InCell s) (hbit : s.bit.toNat < s.cfg.lastBit) :
    exec .evTimer s = .next (s.afterCells 1) := by
  have hsucc := toNat_bit_succ hbit
  have hbits : s.bit + 1 = BitVec.ofNat 4 (s.bit.toNat + 1) := by
    rw [← hsucc, BitVec.ofNat_toNat, BitVec.setWidth_eq]
  rw [exec_nextCell h.lockFree h.sends h.bitbang hbit, driveCell, State.setBit_bit, hsucc, hbits, eventNoted_timer]
  simp [State.afterCells, State.setBit, State.emit, State.arm, cellActions, Action.drives, timeAfterTimer, h.armed,
    h.duration, Config.bitUs, Config.baud]

/-- Bit periods one after another. -/
theorem runs_cells {s : State} {n : Nat} (h : InCell s) (hn : s.bit.toNat + n ≤ s.cfg.lastBit)
    (hline : s.line = some (cellLevel s.txbyte s.bit.toNat)) :
    Runs (List.replicate n (.event .timerExpired)) s (s.afterCells n) := by
  induction n generalizing s with
  | zero =>
    have hs : s.afterCells 0 = s := by simp [State.afterCells, cellActions, ← hline]
    rw [hs]
    exact .nil s
  | succ n ih =>
    have hbit : s.bit.toNat < s.cfg.lastBit := by omega
    have hone : (s.afterCells 1).bit.toNat = s.bit.toNat + 1 := by
      rw [← toNat_bit_succ hbit]; simp [State.afterCells]
    have hnext : (s.afterCells 1).afterCells n = s.afterCells (n + 1) := by
      rw [State.afterCells, hone]
      simp [State.afterCells, cellActions, Nat.add_assoc, Nat.add_comm 1 n, Nat.mul_add, Nat.add_comm 4]
    rw [List.replicate_succ, ← hnext]
    refine .cons (fun rest => ?_) (ih ⟨h.lockFree, h.bitbang, h.sends, h.armed, h.duration⟩ ?_ ?_)
    · exact exec_nextCell_eq (s := s.setInputs rest) ⟨h.lockFree, h.bitbang, h.sends, h.armed, h.duration⟩ hbit
    · rw [hone]
      show s.bit.toNat + 1 + n ≤ s.cfg.lastBit
      omega
    · rw [hone]; rfl

/-! ### From the start of a byte to its end -/

/-- A byte state is one of the two. -/
theorem byteState_cases (k : Nat) : byteState k = .txStartCode ∨ byteState k = .txByte := by
  unfold byteState; split <;> simp

theorem toNat_slot {k : Nat} (hk : k ≤ channelCount) : (BitVec.ofNat 10 k).toNat = k := by
  have hk' : k ≤ 512 := hk
  rw [BitVec.toNat_ofNat, Nat.mod_eq_of_lt (by omega)]

/-- The start bit of slot `k`'s byte is driven, in `BITBANG` mode. -/
def State.inStartBit (s : State) (k : Nat) (out : List Action) (us : Nat) : State :=
  { s.enteringByte k (slotByte s k) 4 out us with
    line := some .space, tmrArmed := true, out := out ++ [.line .space, .arm 4] }

/-- From the start bit, the cells up to the last stop bit are those of the byte's waveform (41_byte_transmit.md
R136). -/
theorem afterCells_inStartBit {s : State} (hm : s.cfg.txMode = .bitbang) (k : Nat) (d : Micros) (out : List Action)
    (us : Nat) : (s.inStartBit k out us).afterCells s.cfg.lastBit = s.endingByte k d out us := by
  have hstart (b : Byte) : cellLevel b 0 = .space := rfl
  simp [State.afterCells, State.inStartBit, State.enteringByte, State.endingByte, byteActions, byteDur, endBit, cellsUs,
    hm, cellLevel_lastBit, cellActions, hstart, Config.bitUs, Config.baud]

/-- A byte that has started runs to the cell it ends in: at once in `UART` mode, cell by cell in `BITBANG` mode. -/
theorem runs_startByte {s : State} {k : Nat} (b : Byte) (d : Micros) (out : List Action) (us : Nat)
    (hlock : s.lock = false) (hk : k ≤ channelCount) :
    Runs (cellEvents s.cfg) (startByte (s.enteringByte k b d out us)) (s.endingByte k d out us) := by
  have hbyte : slotByte (s.enteringByte k b d out us) (s.enteringByte k b d out us).slot.toNat = slotByte s k := by
    rw [show (s.enteringByte k b d out us).slot.toNat = k from toNat_slot hk]; rfl
  cases hm : s.cfg.txMode with
  | uart =>
    have hstart : startByte (s.enteringByte k b d out us) = s.endingByte k d out us := by
      rw [startByte_uart (by exact hm), hbyte]
      simp [State.enteringByte, State.endingByte, byteActions, byteDur, endBit, cellsUs, hm]
    rw [cellEvents, hm, hstart]
    exact .nil _
  | bitbang =>
    have hstart : startByte (s.enteringByte k b d out us) = s.inStartBit k out us := by
      rw [startByte_bitbang (by exact hm) rfl, hbyte]; rfl
    rw [cellEvents, hm, hstart, ← afterCells_inStartBit hm k d]
    exact runs_cells ⟨hlock, hm, byteState_cases k, rfl, rfl⟩ (by simp [State.inStartBit, State.enteringByte]) rfl

/-- The event that ends a byte, in both modes, counts the byte's time (10_state.md R32). -/
theorem eventNoted_endingByte (s : State) (k : Nat) (d : Micros) (out : List Action) (us : Nat) :
    (s.endingByte k d out us).eventNoted (endEvent s.cfg) =
      s.endedByte k (byteDur s.cfg d) (out ++ byteActions s.cfg (slotByte s k)) (us + s.cfg.byteUs) := by
  cases hm : s.cfg.txMode with
  | uart =>
    simp only [endEvent, hm, eventNoted_byte]
    simp [State.endingByte, State.endedByte, timeAfterByte, hm, cellsUs]
  | bitbang =>
    simp only [endEvent, hm, eventNoted_timer]
    simp [State.endingByte, State.endedByte, timeAfterTimer, hm, cellsUs, byteDur, Config.byteUs, Config.bitUs,
      Config.baud, Config.lastBit]
    omega

/-- The byte of slot `k` ends with the event that ends bytes. -/
theorem endsByte_endingByte (s : State) (k : Nat) (d : Micros) (out : List Action) (us : Nat) :
    EndsByte (endEvent s.cfg) (s.endingByte k d out us) := by
  refine ⟨byteState_cases k, ?_⟩
  cases hm : s.cfg.txMode with
  | uart => exact .inl ⟨hm, by simp [endEvent, hm]⟩
  | bitbang =>
    have hlast : s.cfg.lastBit % 16 = s.cfg.lastBit :=
      Nat.mod_eq_of_lt (by obtain ⟨-, hlast⟩ := lastBit_bounds s.cfg; omega)
    exact .inr ⟨hm, by simp [endEvent, hm], by simp [State.endingByte, endBit, hm, hlast]⟩

/-! ### From one byte to the next -/

/-- The time of an inter-byte mark (70_reset_and_hazards.md R246). -/
def gapUs (c : Config) : Nat := if c.markUs.toNat > 0 then c.markUs.toNat else 0

/-- The duration last armed when a byte starts after another. -/
def gapDur (c : Config) (d : Micros) : Micros := if c.markUs.toNat > 0 then c.markUs else d

/-- The byte of slot `k` has ended and its mark runs, with trace `out` and time `us` (40_fsm_sequencer.md R100,
R102). -/
def State.inGap (s : State) (k : Nat) (out : List Action) (us : Nat) : State :=
  { s with state := if byteState k = .txStartCode then .txStartMark else .txMark, slot := BitVec.ofNat 10 (k + 1),
           bit := 0, txbyte := slotByte s k, uartBusy := false, tmrArmed := true, tmrDur := s.cfg.markUs,
           line := some .mark, out := out ++ [.arm s.cfg.markUs], vtimeUs := us }

section
variable {s : State} {k : Nat} (d : Micros) (out : List Action) (us : Nat)

theorem ofNat_slot_succ (k : Nat) : BitVec.ofNat 10 k + 1 = BitVec.ofNat 10 (k + 1) := (BitVec.ofNat_add k 1).symm

theorem slot_endingByte (hk : k ≤ channelCount) : (s.endingByte k d out us).slot.toNat = k := toNat_slot hk

/-- Back to back, the end of a byte starts the next. -/
theorem exec_endingByte_noMark (hlock : s.lock = false) (hk : k < channelCount) (hmark : s.cfg.markUs.toNat = 0) :
    exec (endEvent s.cfg).instr (s.endingByte k d out us) =
      .next (startByte (s.enteringByte (k + 1) (slotByte s k) (byteDur s.cfg d)
        (out ++ byteActions s.cfg (slotByte s k)) (us + s.cfg.byteUs))) := by
  rw [exec_byteEnds_noMark (by exact hlock) (endsByte_endingByte s k d out us)
    ((slot_endingByte d out us hk.le).trans_lt hk) (by exact hmark), eventNoted_endingByte, nextSlot,
    afterByte_of_noMark (by exact hmark)]
  simp only [State.endedByte, ofNat_slot_succ]
  rfl

/-- With inter-byte marks, the end of a byte starts its mark. -/
theorem exec_endingByte_mark (hlock : s.lock = false) (hk : k < channelCount) (hmark : 0 < s.cfg.markUs.toNat) :
    exec (endEvent s.cfg).instr (s.endingByte k d out us) =
      .next (s.inGap k (out ++ byteActions s.cfg (slotByte s k)) (us + s.cfg.byteUs)) := by
  rw [exec_byteEnds_mark (by exact hlock) (endsByte_endingByte s k d out us)
    ((slot_endingByte d out us hk.le).trans_lt hk) (by exact hmark), eventNoted_endingByte,
    actMark_nextSlot (by exact hmark)]
  simp only [State.endedByte, ofNat_slot_succ]
  rfl

/-- The end of the mark starts the next byte. -/
theorem exec_inGap (hlock : s.lock = false) (hk : k < channelCount) :
    exec .evTimer (s.inGap k out us) =
      .next (startByte (s.enteringByte (k + 1) (slotByte s k) s.cfg.markUs (out ++ [.arm s.cfg.markUs])
        (us + s.cfg.markUs.toNat))) := by
  have hstate : (s.inGap k out us).state = .txStartMark ∨ (s.inGap k out us).state = .txMark := by
    unfold State.inGap; split <;> simp
  rw [exec_markElapses (by exact hlock) ((toNat_slot hk).trans_le hk) (.inr ⟨hstate, rfl⟩) (fun _ => rfl),
    eventNoted_timer]
  rfl

/-- The last byte's end runs `Update`'s action (40_fsm_sequencer.md R113). -/
theorem exec_endingByte_last (hlock : s.lock = false) :
    exec (endEvent s.cfg).instr (s.endingByte channelCount d out us) =
      .next (actUpdate (s.endedByte channelCount (byteDur s.cfg d)
        (out ++ byteActions s.cfg (slotByte s channelCount)) (us + s.cfg.byteUs))) := by
  rw [exec_lastByteEnds (by exact hlock) (endsByte_endingByte s channelCount d out us)
    (slot_endingByte d out us le_rfl), eventNoted_endingByte]

end

theorem setInputs_startByte (s : State) (rest : List Input) :
    (startByte s).setInputs rest = startByte (s.setInputs rest) := by
  unfold startByte
  rw [State.setInputs_cfg]
  split <;> rfl

theorem setInputs_actUpdate (s : State) (rest : List Input) :
    (actUpdate s).setInputs rest = actUpdate (s.setInputs rest) := by
  cases hstop : s.stopReq with
  | true => rw [actUpdate_stop hstop, actUpdate_stop (s := s.setInputs rest) hstop]; rfl
  | false => rw [actUpdate_frame hstop, actUpdate_frame (s := s.setInputs rest) hstop]; rfl

/-- The end of a byte before slot 512 and the gap after it lead to the start of the next byte (41_byte_transmit.md
R135). -/
theorem runs_gap {s : State} {k : Nat} (d : Micros) (out : List Action) (us : Nat) (hlock : s.lock = false)
    (hk : k < channelCount) :
    Runs (.event (endEvent s.cfg) :: gapEvents s.cfg) (s.endingByte k d out us)
      (startByte (s.enteringByte (k + 1) (slotByte s k) (gapDur s.cfg (byteDur s.cfg d))
        (out ++ byteActions s.cfg (slotByte s k) ++ gapActions s.cfg) (us + s.cfg.byteUs + gapUs s.cfg))) := by
  rcases Nat.eq_zero_or_pos s.cfg.markUs.toNat with hmark | hmark
  · have hgap : ¬ s.cfg.markUs.toNat > 0 := by omega
    simp only [gapEvents, gapActions, gapUs, gapDur, if_neg hgap, List.append_nil, Nat.add_zero]
    refine .event fun rest => ?_
    rw [setInputs_startByte]
    exact exec_endingByte_noMark (s := s.setInputs rest) d out us hlock hk hmark
  · simp only [gapEvents, gapActions, gapUs, gapDur, if_pos hmark]
    refine .cons (t := s.inGap k (out ++ byteActions s.cfg (slotByte s k)) (us + s.cfg.byteUs))
      (fun rest => exec_endingByte_mark (s := s.setInputs rest) d out us hlock hk hmark)
      (.event (e := .timerExpired) fun rest => ?_)
    rw [setInputs_startByte]
    exact exec_inGap (s := s.setInputs rest) _ _ hlock hk

/-- The time of `n` gaps and bytes. -/
def channelUs (c : Config) (n : Nat) : Nat := n * (gapUs c + c.byteUs)

/-- From the start of slot `k`'s byte, the bytes up to slot 512 run to the frame's end: each one's cells, its end and
the gap after it, and `Update`'s action at last. -/
theorem runs_bytes {s : State} {k n : Nat} (b : Byte) (d : Micros) (out : List Action) (us : Nat)
    (hlock : s.lock = false) (hk : k + n = channelCount) :
    ∃ d', Runs (byteEvents s.cfg ++ channelEvents s.cfg n) (startByte (s.enteringByte k b d out us))
      (actUpdate (s.endedByte channelCount d'
        (out ++ byteActions s.cfg (slotByte s k) ++ channelActions s.cfg s.store (k + 1) n)
        (us + s.cfg.byteUs + channelUs s.cfg n))) := by
  induction n generalizing k b d out us with
  | zero =>
    obtain rfl : k = channelCount := hk
    have hlast : Runs [.event (endEvent s.cfg)] (s.endingByte channelCount d out us)
        (actUpdate (s.endedByte channelCount (byteDur s.cfg d)
          (out ++ byteActions s.cfg (slotByte s channelCount)) (us + s.cfg.byteUs))) := by
      refine .event fun rest => ?_
      rw [setInputs_actUpdate]
      exact exec_endingByte_last (s := s.setInputs rest) d out us hlock
    refine ⟨byteDur s.cfg d, ?_⟩
    simpa [byteEvents_eq, channelEvents, channelActions, channelUs] using
      (runs_startByte b d out us hlock le_rfl).append hlast
  | succ n ih =>
    obtain ⟨d', hruns⟩ := ih (k := k + 1) (slotByte s k) (gapDur s.cfg (byteDur s.cfg d))
      (out ++ byteActions s.cfg (slotByte s k) ++ gapActions s.cfg) (us + s.cfg.byteUs + gapUs s.cfg) (by omega)
    have hbyte := runs_startByte (s := s) (k := k) b d out us hlock (by omega)
    have hgap := runs_gap (s := s) (k := k) d out us hlock (by omega)
    refine ⟨d', ?_⟩
    have hus : us + s.cfg.byteUs + channelUs s.cfg (n + 1) =
        us + s.cfg.byteUs + gapUs s.cfg + s.cfg.byteUs + channelUs s.cfg n := by
      unfold channelUs; ring
    rw [hus]
    simpa [byteEvents_eq, channelEvents, channelActions, slotByte_eq] using hbyte.append (hgap.append hruns)

/-! ### The whole frame -/

/-- The wait of `MarkBeforeBreak` that a frame begins with (R96). -/
structure FrameBegins (s : State) : Prop where
  state : s.state = .markBeforeBreak
  slot : s.slot = 0
  bit : s.bit = 0
  lockFree : s.lock = false
  notBusy : s.uartBusy = false
  armed : s.tmrArmed = true
  duration : s.tmrDur = s.cfg.mbbUs
  line : s.line = some .mark

/-- The break, entered from `s` (R97, R105). -/
def State.inBreak (s : State) : State :=
  { s with state := .lineBreak, line := some .space, tmrArmed := true, tmrDur := s.cfg.breakUs,
           out := s.out ++ [if s.cfg.txMode = .uart then .breakReq else .line .space, .arm s.cfg.breakUs],
           vtimeUs := timeAfterTimer s }

/-- The mark after break, entered from `s` (R98, R106). -/
def State.inMarkAfterBreak (s : State) : State :=
  { s with state := .markAfterBreak, line := some .mark, tmrArmed := true, tmrDur := s.cfg.mabUs,
           out := s.out ++ [.line .mark, .arm s.cfg.mabUs], vtimeUs := timeAfterTimer s }

/-- Three timer events lead from `MarkBeforeBreak` through the break to the start code. -/
theorem runs_break {s : State} (h : FrameBegins s) :
    Runs (List.replicate 3 (.event .timerExpired)) s
      (startByte (s.enteringByte 0 s.txbyte s.cfg.mabUs (s.out ++ breakActions s.cfg)
        (s.vtimeUs + s.cfg.mbbUs.toNat + s.cfg.breakUs.toNat + s.cfg.mabUs.toNat))) := by
  have hentering (rest : List Input) :
      ((s.inBreak.inMarkAfterBreak.setInputs rest).eventNoted .timerExpired).setState .txStartCode =
        (s.enteringByte 0 s.txbyte s.cfg.mabUs (s.out ++ breakActions s.cfg)
          (s.vtimeUs + s.cfg.mbbUs.toNat + s.cfg.breakUs.toNat + s.cfg.mabUs.toNat)).setInputs rest := by
    rw [eventNoted_timer]
    cases hm : s.cfg.txMode <;>
      simp [State.inBreak, State.inMarkAfterBreak, State.enteringByte, State.setState, State.setInputs, byteState,
        breakActions, timeAfterTimer, hm, h.slot, h.bit, h.notBusy, h.armed, h.duration]
  refine .cons (t := s.inBreak) (fun rest => breakBegins (s.setInputs rest) h.lockFree h.state) ?_
  refine .cons (t := s.inBreak.inMarkAfterBreak) (fun rest => breakEnds (s.inBreak.setInputs rest) h.lockFree rfl) ?_
  refine .event (e := .timerExpired) fun rest => ?_
  rw [setInputs_startByte, ← hentering]
  exact exec_markElapses (s := s.inBreak.inMarkAfterBreak.setInputs rest) h.lockFree
    (by simp [State.inBreak, State.inMarkAfterBreak, h.slot]) (.inl ⟨rfl, rfl⟩)
    (by simp [State.inBreak, State.inMarkAfterBreak, h.bit])

/-- The events of a frame lead to `Update`'s action, with every action of the frame but the next mark's in the trace,
and the frame's time counted (R115, 70_reset_and_hazards.md R246). -/
theorem runs_frame {s : State} (h : FrameBegins s) :
    ∃ d out, Runs (frameEvents s.cfg) s (actUpdate (s.endedByte channelCount d out (s.vtimeUs + frameUs s.cfg))) ∧
      out ++ [.line .mark, .arm s.cfg.mbbUs] = s.out ++ frameActions s.cfg s.store := by
  obtain ⟨d, hruns⟩ := runs_bytes (s := s) (k := 0) (n := channelCount) s.txbyte s.cfg.mabUs
    (s.out ++ breakActions s.cfg) (s.vtimeUs + s.cfg.mbbUs.toNat + s.cfg.breakUs.toNat + s.cfg.mabUs.toNat) h.lockFree
    (Nat.zero_add _)
  have hus : s.vtimeUs + s.cfg.mbbUs.toNat + s.cfg.breakUs.toNat + s.cfg.mabUs.toNat + s.cfg.byteUs +
      channelUs s.cfg channelCount = s.vtimeUs + frameUs s.cfg := by
    simp only [channelUs, gapUs, frameUs, nSlot, channelCount]
    split <;> omega
  rw [hus] at hruns
  refine ⟨d, _, by simpa [frameEvents] using (runs_break h).append hruns, ?_⟩
  simp [frameActions, slotByte_eq]

/-- Settles O58: the frame's run, and then `Update`'s action without a stop. -/
theorem frameReturnsToMarkBeforeBreak : Obligations.FrameReturnsToMarkBeforeBreak := by
  intro s rest hs hslot hbit hlock hstop hbusy harmed hdur hline hin
  have hslot' : s.slot = 0 := BitVec.eq_of_toNat_eq hslot
  have hbit' : s.bit = 0 := BitVec.eq_of_toNat_eq hbit
  obtain ⟨d, out, hruns, hout⟩ := runs_frame ⟨hs, hslot', hbit', hlock, hbusy, harmed, hdur, hline⟩
  have hrun := hruns.run rest
  rw [← hin, actUpdate_frame (by exact hstop)] at hrun
  refine ⟨_, sweptFrom_fadeSweep s.store s.cfg.deltaMs, hrun.trans ?_⟩
  simp [State.setInputs, State.endedByte, hout, hs, hslot', hbit', hbusy, harmed, hdur, hline]

/-- Settles O59: the same run, and then `Update`'s action with the stop honoured. -/
theorem stoppedFrameRunsToItsEnd : Obligations.StoppedFrameRunsToItsEnd := by
  intro s rest hs hslot hbit hlock hstop hbusy harmed hdur hline hin
  obtain ⟨d, out, hruns, hout⟩ := runs_frame
    ⟨hs, BitVec.eq_of_toNat_eq hslot, BitVec.eq_of_toNat_eq hbit, hlock, hbusy, harmed, hdur, hline⟩
  have hrun := hruns.run rest
  rw [← hin, actUpdate_stop (by exact hstop)] at hrun
  exact ⟨_, hrun, rfl, rfl, rfl, rfl, rfl, rfl, rfl, sweptFrom_fadeSweep s.store s.cfg.deltaMs, rfl, hout⟩

end Sys2Proof.Machine
end

section
/-! PROOFS. The statements of 41_byte_transmit.md: the byte that is sent (R137), the next bit cell (R133, R134), and the
waveform of one byte in `BITBANG` mode (R136). -/

namespace Sys2Proof

/-! ### The byte of an entry -/

/-- `cur[15:8]` as a number: the fraction is dropped (R137). -/
theorem Entry.toNat_sentByte (e : Entry) : e.sentByte.toNat = e.cur.toNat / 256 := by
  have hcur : e.cur.toNat < 65536 := e.cur.isLt
  simp only [Entry.sentByte, BitVec.extractLsb'_toNat, Nat.shiftRight_eq_div_pow]
  omega

/-- Settles O47: the byte is the quotient by 256, and 65280 is `255 * 256`. -/
theorem sentByteIsTheIntegerPart : Obligations.SentByteIsTheIntegerPart := by
  intro e
  have hbyte := e.toNat_sentByte
  have hcur : e.cur.toNat < 65536 := e.cur.isLt
  exact ⟨hbyte, by omega, fun hmax => by omega⟩

end Sys2Proof

namespace Sys2Proof.Machine

open Sys2Proof

/-! ### The next bit cell -/

/-- The cells after the start bit: the data bits, least significant first, then the stop bits (R133, R134). -/
theorem cellLevel_succ (b : Byte) (n : Nat) :
    cellLevel b (n + 1) = if n + 1 ≤ 8 then Level.ofBit (b.getLsbD n) else .mark := rfl

/-- Settles O25: the event drives the cell after `bit`, whose level `cellLevel_succ` says. -/
theorem nextBitIsDriven : Obligations.NextBitIsDriven := by
  intro s hlock hm hs hbit
  rw [exec_nextCell hlock hs hm hbit, driveCell, State.setBit_bit, toNat_bit_succ hbit, eventNoted_timer]
  simp [State.setBit, State.emit, State.arm, Action.drives, cellLevel_succ, Config.bitUs, Config.baud]

/-! ### The waveform of one byte -/

/-- A state with the line at the level of its own cell. -/
def State.lineAtCell (s : State) : State := { s with line := some (cellLevel s.txbyte s.bit.toNat) }

/-- A bit period forgets the level before it: the line is driven whether it changes or not (R133). -/
theorem exec_nextCell_lineAtCell {s : State} (h : InCell s) (hbit : s.bit.toNat < s.cfg.lastBit) :
    exec .evTimer s = exec .evTimer s.lineAtCell :=
  calc exec .evTimer s
    _ = .next (s.afterCells 1) := exec_nextCell_eq h hbit
    _ = .next (s.lineAtCell.afterCells 1) := rfl
    _ = exec .evTimer s.lineAtCell :=
      (exec_nextCell_eq (s := s.lineAtCell) ⟨h.lockFree, h.bitbang, h.sends, h.armed, h.duration⟩ hbit).symm

/-- One bit period or more, whatever the level before: `runs_cells` without its premise on the line. -/
theorem runs_cells_succ {s : State} {n : Nat} (h : InCell s) (hn : s.bit.toNat + (n + 1) ≤ s.cfg.lastBit) :
    Runs (List.replicate (n + 1) (.event .timerExpired)) s (s.afterCells (n + 1)) := by
  have hruns : Runs (List.replicate (n + 1) (.event .timerExpired)) s.lineAtCell (s.afterCells (n + 1)) :=
    runs_cells (s := s.lineAtCell) ⟨h.lockFree, h.bitbang, h.sends, h.armed, h.duration⟩ hn rfl
  rw [List.replicate_succ] at hruns ⊢
  obtain _ | ⟨hfirst, hrest⟩ := hruns
  refine .cons (fun rest => ?_) hrest
  have hsame : exec .evTimer (s.setInputs rest) = exec .evTimer (s.lineAtCell.setInputs rest) :=
    exec_nextCell_lineAtCell (s := s.setInputs rest) ⟨h.lockFree, h.bitbang, h.sends, h.armed, h.duration⟩
      (show s.bit.toNat < s.cfg.lastBit by omega)
  exact hsame.trans (hfirst rest)

/-- The cells after the start bit with two stop bits (R136). -/
theorem cellActions_dataAndTwoStops (b : Byte) :
    cellActions b 1 10 =
      ((List.range 8).map fun k => Level.ofBit (b.getLsbD k)).flatMap (fun l => [Action.line l, Action.arm 4]) ++
        [.line .mark, .arm 4, .line .mark, .arm 4] := rfl

/-- Settles O48: ten bit periods from the start bit. -/
theorem bitbangWaveformOfOneByte : Obligations.BitbangWaveformOfOneByte := by
  intro s rest hlock hm hstop hs hbit harmed hdur hin
  have hlast : s.cfg.lastBit = 10 := by simp [Config.lastBit, Config.stopCount, hstop, Config.dataBits]
  have hrun := (runs_cells_succ (n := 9) ⟨hlock, hm, hs, harmed, hdur⟩ (by omega)).run rest
  rw [← hin] at hrun
  refine hrun.trans ?_
  simp [State.afterCells, State.setInputs, hbit, cellActions_dataAndTwoStops, cellLevel_succ]

end Sys2Proof.Machine
end

section
/-! PROOFS. The statements of 42_fade_pipeline.md: one sweep of one entry (R152) with its bounds (R153, R154, R156), the
sweep of the store (R150), and many sweeps of one entry (R155, R158, R160). -/

namespace Sys2Proof

/-- An entry is its three fields (10_state.md R33). -/
theorem Entry.eq_of_fields : ∀ {a b : Entry}, a.cur = b.cur → a.tgt = b.tgt → a.rem = b.rem → a = b
  | ⟨_, _, _⟩, ⟨_, _, _⟩, rfl, rfl, rfl => rfl

/-- The target is a level in range (10_state.md R34). -/
theorem Entry.target_le (e : Entry) : e.target ≤ maxFixed := by
  have htgt : e.tgt.toNat < 256 := e.tgt.isLt
  simp only [Entry.target, maxFixed]
  omega

end Sys2Proof

namespace Sys2Proof.Machine

open Sys2Proof

/-! ### One sweep of one entry: the two branches of R152 -/

variable {e : Entry} {d : Millis}

/-- The snap branch writes the target. -/
theorem fadeEntry_cur_snap (h : e.rem.toNat ≤ d.toNat) : (fadeEntry e d).cur.toNat = e.target := by
  have hle : e.target ≤ 65280 := e.target_le
  rw [fadeEntry, if_pos h]
  simp only [BitVec.toNat_ofNat]
  omega

/-- The division branch writes the clamped sum, which fits the register. -/
theorem fadeEntry_cur_divide (h : d.toNat < e.rem.toNat) :
    ((fadeEntry e d).cur.toNat : Int) = clamp (e.cur.toNat + fadeStep e d) 0 maxFixed := by
  obtain ⟨hlo, hhi⟩ := clamp_range (x := e.cur.toNat + fadeStep e d) (lo := 0) (hi := maxFixed) (by decide)
  rw [fadeEntry, if_neg (by omega)]
  simp only [BitVec.toNat_ofNat, maxFixed] at hlo hhi ⊢
  omega

/-- In both branches the time left falls by `delta`, and stops at 0. -/
theorem fadeEntry_rem (e : Entry) (d : Millis) : (fadeEntry e d).rem.toNat = e.rem.toNat - d.toNat := by
  have hrem : e.rem.toNat < 65536 := e.rem.isLt
  unfold fadeEntry
  split
  · next h => exact (Nat.sub_eq_zero_of_le h).symm
  · simp only [BitVec.toNat_ofNat]
    omega

/-- No time is left after a sweep exactly when the sweep took the snap branch. -/
theorem fadeEntry_rem_eq_zero_iff : (fadeEntry e d).rem = 0 ↔ e.rem.toNat ≤ d.toNat := by
  rw [BitVec.toNat_eq, fadeEntry_rem]
  exact Nat.sub_eq_zero_iff_le

/-- The clamp written with the order's minimum and maximum (00_scope.md R8). -/
theorem clamp_eq_max_min {x lo hi : Int} (h : lo ≤ hi) : clamp x lo hi = max lo (min hi x) := by
  unfold clamp
  split
  · omega
  · split <;> omega

/-! ### The step of the division branch (R153) -/

/-- The signed distance from the level to the target, R152's `gap`. -/
def fadeGap (e : Entry) : Int := e.target - e.cur.toNat

theorem fadeGap_eq (e : Entry) : fadeGap e = e.tgt.toNat * 256 - e.cur.toNat := by
  simp [fadeGap, Entry.target]

theorem fadeStep_eq_tdiv (e : Entry) (d : Millis) : fadeStep e d = Int.tdiv (fadeGap e * d.toNat) e.rem.toNat :=
  tdiv_eq _ _

theorem natAbs_fadeStep (e : Entry) (d : Millis) :
    (fadeStep e d).natAbs = (fadeGap e).natAbs * d.toNat / e.rem.toNat := by
  rw [fadeStep, natAbs_tdiv, Int.natAbs_mul, Int.natAbs_natCast, fadeGap]

theorem natAbs_fadeStep_lt (h : d.toNat < e.rem.toNat) (hgap : fadeGap e ≠ 0) :
    (fadeStep e d).natAbs < (fadeGap e).natAbs := by
  have hprod : (fadeGap e).natAbs * d.toNat < (fadeGap e).natAbs * e.rem.toNat :=
    Nat.mul_lt_mul_of_pos_left h (Int.natAbs_pos.2 hgap)
  rw [natAbs_fadeStep]
  exact Nat.div_lt_of_lt_mul (by rwa [Nat.mul_comm e.rem.toNat])

theorem fadeStep_nonneg (d : Millis) (h : 0 ≤ fadeGap e) : 0 ≤ fadeStep e d := by
  rw [fadeStep_eq_tdiv]
  exact Int.tdiv_nonneg (Int.mul_nonneg h (Int.natCast_nonneg _)) (Int.natCast_nonneg _)

theorem fadeStep_nonpos (d : Millis) (h : fadeGap e ≤ 0) : fadeStep e d ≤ 0 := by
  have hneg : 0 ≤ Int.tdiv (-fadeGap e * d.toNat) e.rem.toNat :=
    Int.tdiv_nonneg (Int.mul_nonneg (Int.neg_nonneg_of_nonpos h) (Int.natCast_nonneg _)) (Int.natCast_nonneg _)
  rw [Int.neg_mul, Int.neg_tdiv, ← fadeStep_eq_tdiv] at hneg
  exact Int.nonpos_of_neg_nonneg hneg

/-- The step leads from the level toward the target and stays short of it. -/
theorem fadeStep_toward (h : d.toNat < e.rem.toNat) :
    (0 < fadeGap e ∧ 0 ≤ fadeStep e d ∧ fadeStep e d < fadeGap e) ∨
    (fadeGap e < 0 ∧ fadeGap e < fadeStep e d ∧ fadeStep e d ≤ 0) ∨
    (fadeGap e = 0 ∧ fadeStep e d = 0) := by
  rcases lt_trichotomy (fadeGap e) 0 with hneg | hzero | hpos
  · have hlt := natAbs_fadeStep_lt h hneg.ne
    have hsign := fadeStep_nonpos d hneg.le
    exact .inr (.inl ⟨hneg, by omega, hsign⟩)
  · exact .inr (.inr ⟨hzero, by simp [fadeStep_eq_tdiv, hzero]⟩)
  · have hlt := natAbs_fadeStep_lt h hpos.ne'
    have hsign := fadeStep_nonneg d hpos.le
    exact .inl ⟨hpos, hsign, by omega⟩

/-- The step is 0 or has the sign of the gap. -/
theorem fadeStep_zero_or_sign (h : d.toNat < e.rem.toNat) :
    fadeStep e d = 0 ∨ (fadeStep e d).sign = (fadeGap e).sign := by
  rcases fadeStep_toward h with ⟨hpos, hge, -⟩ | ⟨hneg, -, hle⟩ | ⟨-, hzero⟩
  · rcases hge.eq_or_lt with hzero | hstep
    · exact .inl hzero.symm
    · exact .inr (by rw [Int.sign_eq_one_of_pos hstep, Int.sign_eq_one_of_pos hpos])
  · rcases hle.eq_or_lt with hzero | hstep
    · exact .inl hzero
    · exact .inr (by rw [Int.sign_eq_neg_one_of_neg hstep, Int.sign_eq_neg_one_of_neg hneg])
  · exact .inl hzero

/-- In range the clamp changes nothing (R154). -/
theorem fadeEntry_cur_unclamped (hcur : e.cur.toNat ≤ maxFixed) (h : d.toNat < e.rem.toNat) :
    ((fadeEntry e d).cur.toNat : Int) = e.cur.toNat + fadeStep e d := by
  have htarget := e.target_le
  have htoward := fadeStep_toward h
  rw [fadeEntry_cur_divide h]
  simp only [fadeGap] at htoward
  exact clamp_of_mem (by omega) (by omega)

/-- A level at the target stays there in both branches. -/
theorem fadeEntry_cur_at_target (d : Millis) (h : e.cur.toNat = e.target) : (fadeEntry e d).cur.toNat = e.target := by
  rcases Nat.lt_or_ge d.toNat e.rem.toNat with hdiv | hsnap
  · have hcur := fadeEntry_cur_unclamped (h ▸ e.target_le) hdiv
    have htoward := fadeStep_toward hdiv
    simp only [fadeGap] at htoward
    omega
  · exact fadeEntry_cur_snap hsnap

/-- With step 0 the level stands still (R156). -/
theorem fadeEntry_cur_of_step_zero (hcur : e.cur.toNat ≤ maxFixed) (h : d.toNat < e.rem.toNat)
    (hstep : fadeStep e d = 0) : (fadeEntry e d).cur = e.cur := by
  have hmove := fadeEntry_cur_unclamped hcur h
  rw [hstep] at hmove
  exact BitVec.eq_of_toNat_eq (by omega)

/-- Settles O49: the snap branch, and the division branch with its clamp written out. -/
theorem fadeEntryResult : Obligations.FadeEntryResult := by
  refine ⟨fun e d => ⟨fadeEntry_tgt e d, fun hsnap => ?_, fun hdiv => ⟨?_, fadeEntry_rem e d⟩⟩, by decide⟩
  · exact ⟨fadeEntry_cur_snap hsnap, fadeEntry_rem_eq_zero_iff.2 hsnap⟩
  · rw [fadeEntry_cur_divide hdiv, clamp_eq_max_min (by decide), fadeStep_eq_tdiv, fadeGap_eq]
    rfl

/-- Settles O51: the step's magnitude is a quotient of magnitudes, and the step leads toward the target. -/
theorem fadeArithmeticBounds : Obligations.FadeArithmeticBounds := by
  intro e d hcur hdiv
  simp only [← fadeGap_eq]
  have hrem : e.rem.toNat < 65536 := e.rem.isLt
  have htarget : e.target ≤ 65280 := e.target_le
  have hgap : (fadeGap e).natAbs ≤ 65280 := by
    unfold fadeGap
    omega
  have hprod : (fadeGap e * d.toNat).natAbs ≤ 4278059520 := by
    rw [Int.natAbs_mul, Int.natAbs_natCast]
    exact Nat.mul_le_mul hgap (by omega : d.toNat ≤ 65534)
  exact ⟨by omega, hprod, by omega, (natAbs_fadeStep e d).le, natAbs_fadeStep_lt hdiv,
    fadeStep_zero_or_sign hdiv, by omega⟩

/-- Settles O52: the sweep adds the step unclamped, and the step leads toward the target and stays short of it. -/
theorem fadeNeverOvershoots : Obligations.FadeNeverOvershoots := by
  refine ⟨fadeEntry_level, fun e d hcur hdiv => ?_⟩
  have hmove := fadeEntry_cur_unclamped hcur hdiv
  have htoward := fadeStep_toward hdiv
  simp only [fadeGap_eq] at htoward
  exact ⟨by omega, by omega, by omega, hmove⟩

/-- Settles O54: a scaled gap below `rem` divides to 0. -/
theorem fadeStallsByTruncation : Obligations.FadeStallsByTruncation := by
  intro e d hcur hdiv hsmall
  rw [← fadeGap_eq] at hsmall
  have hstep : fadeStep e d = 0 := by
    rw [← Int.natAbs_eq_zero, natAbs_fadeStep, Nat.div_eq_of_lt hsmall]
  exact ⟨fadeEntry_cur_of_step_zero hcur hdiv hstep, fadeEntry_rem e d⟩

/-! ### The sweep of the store -/

/-- The loop keeps the canonical form of the store. -/
theorem wf_sweepLoop {n : Nat} {m : Memory} (d : Millis) (hn : n ≤ nSlot) (h : m.wf = true) :
    (sweepLoop n m d).wf = true := by
  induction n with
  | zero => exact h
  | succ i ih => exact Memory.wf_write _ (ih (by omega)) (Nat.le_of_succ_le_succ hn)

/-- Settles O50: the two stores are canonical and read alike at every index. -/
theorem sweepIsTheLoopOverAllEntries : Obligations.SweepIsTheLoopOverAllEntries := by
  intro m d h
  refine Memory.ext_of_wf (wf_fadeSweep d h) (wf_sweepLoop d le_rfl h) fun i => ?_
  rw [read_fadeSweep, read_sweepLoop]
  simp only [channelCount, Nat.lt_succ_iff]

/-! ### Many sweeps of one entry -/

theorem sweeps_succ (d : Millis) (n : Nat) (e : Entry) : sweeps d (n + 1) e = fadeEntry (sweeps d n e) d :=
  Function.iterate_succ_apply' _ n e

/-- Every sweep takes `delta` from the time left, down to 0. -/
theorem sweeps_rem (d : Millis) (n : Nat) (e : Entry) : (sweeps d n e).rem.toNat = e.rem.toNat - n * d.toNat := by
  induction n with
  | zero => simp [sweeps]
  | succ n ih => rw [sweeps_succ, fadeEntry_rem, ih, Nat.sub_sub, Nat.succ_mul]

/-- No sweep writes `tgt`. -/
theorem sweeps_tgt (d : Millis) (n : Nat) (e : Entry) : (sweeps d n e).tgt = e.tgt := by
  induction n with
  | zero => rfl
  | succ n ih => rw [sweeps_succ, fadeEntry_tgt, ih]

/-- A level at the target stays there through every sweep (R158). -/
theorem sweeps_cur_at_target (d : Millis) (n : Nat) (h : e.cur.toNat = e.target) :
    (sweeps d n e).cur.toNat = e.target := by
  induction n with
  | zero => exact h
  | succ n ih =>
    have htarget : (sweeps d n e).target = e.target := by rw [Entry.target, Entry.target, sweeps_tgt]
    rw [sweeps_succ, fadeEntry_cur_at_target d (ih.trans htarget.symm), htarget]

/-- With `delta = 0` a sweep leaves an entry with time left as it is (R155). -/
theorem fadeEntry_no_time (hrem : 0 < e.rem.toNat) (hcur : e.cur.toNat ≤ maxFixed) : fadeEntry e 0 = e := by
  have hstep : fadeStep e 0 = 0 := by simp [fadeStep_eq_tdiv]
  exact Entry.eq_of_fields (fadeEntry_cur_of_step_zero hcur hrem hstep) (fadeEntry_tgt e 0)
    (BitVec.eq_of_toNat_eq (fadeEntry_rem e 0))

/-- Settles O53: only the snap branch leaves no time, `n` sweeps take `n * delta` of it, and `delta = 0` takes none. -/
theorem fadeArrivesExactly : Obligations.FadeArrivesExactly := by
  refine ⟨fun e d hzero => ?_, fun e d n _ hd => ?_, fun e n hrem hcur => ?_⟩
  · have harrived : (fadeEntry e d).cur.toNat = e.target := fadeEntry_cur_snap (fadeEntry_rem_eq_zero_iff.1 hzero)
    refine ⟨harrived, BitVec.eq_of_toNat_eq ?_⟩
    rw [Entry.toNat_sentByte, harrived, Entry.target, Nat.mul_div_cancel _ (by decide)]
  · calc (sweeps d n e).rem = 0
      _ ↔ e.rem.toNat - n * d.toNat = 0 := by rw [BitVec.toNat_eq, sweeps_rem]; rfl
      _ ↔ e.rem.toNat ≤ d.toNat * n := by rw [Nat.sub_eq_zero_iff_le, Nat.mul_comm]
      _ ↔ (e.rem.toNat + d.toNat - 1) / d.toNat ≤ n := (ceilDiv_le_iff_le_mul hd).symm
  · exact Function.iterate_fixed (fadeEntry_no_time hrem hcur) n

/-! ### Sweeps after a host write (R158) -/

/-- The level a legal operand names: `SET` and `FADE` write it as the target. -/
theorem toNat_level {v : Nat} (h : v ≤ 255) : (BitVec.ofNat 8 v).toNat = v := by
  simp only [BitVec.toNat_ofNat]
  omega

/-- SET leaves the level at its target. -/
theorem setEntry_at_target (e : Entry) {v : Nat} (h : v ≤ 255) :
    (setEntry e v).cur.toNat = v * 256 ∧ (setEntry e v).target = v * 256 := by
  refine ⟨?_, congrArg (· * 256) (toNat_level h)⟩
  simp only [setEntry, levelToFixed, BitVec.toNat_ofNat]
  omega

theorem fadeTo_target (e : Entry) {v : Nat} (t : Nat) (h : v ≤ 255) : (fadeTo e v t).target = v * 256 :=
  congrArg (· * 256) (toNat_level h)

theorem fadeTo_rem (e : Entry) (v : Nat) {t : Nat} (h : t < 2 ^ 16) : (fadeTo e v t).rem.toNat = t :=
  Nat.mod_eq_of_lt h

/-- Settles O56: SET leaves the level at its target, FADE a time left that the next sweep divides by or, being 0, snaps
at. -/
theorem sweepsAfterHostWrites : Obligations.SweepsAfterHostWrites := by
  intro e v t d n hv ht
  obtain ⟨hcur, htarget⟩ := setEntry_at_target e hv
  refine ⟨?_, sweeps_rem d n (setEntry e v), fun hdt hmax => ?_, ?_⟩
  · rw [sweeps_cur_at_target d n (hcur.trans htarget.symm), htarget]
  · have hrem := fadeTo_rem e v ht
    rw [fadeEntry_cur_unclamped (e := fadeTo e v t) hmax (by omega), fadeStep_eq_tdiv, hrem, fadeGap,
      fadeTo_target e t hv]
    simp [fadeTo]
  · rw [fadeEntry_cur_snap (e := fadeTo e v 0) (Nat.zero_le d.toNat), fadeTo_target e 0 hv]

/-- Settles O55: the eleven sweeps evaluated. -/
theorem fadeWorkedExample : Obligations.FadeWorkedExample := by
  unfold Obligations.FadeWorkedExample
  decide

end Sys2Proof.Machine
end

section
/-! PROOFS. The statements of 43_host_commands.md: the whole effect of START, STOP, SET and FADE, the refusal of operands
out of range, and the one answer that every host word gets (R170). -/

namespace Sys2Proof.Machine

open Sys2Proof

/-! ### START and STOP -/

/-- `Init` entered and its action run, field by field: the line initialised and the timer armed for `SETTLE_US`
(R171). -/
theorem initEntered_eq (s : State) :
    ((actInit (((s.setStopReq false).setState .init).setLock true)).setLock false).respond .ok =
      { s with state := .init, stopReq := false, lock := false, line := some .mark, tmrArmed := true,
               tmrDur := s.cfg.settleUs, out := s.out ++ [.lineInit, .arm s.cfg.settleUs],
               resps := s.resps ++ [.ok] } := by
  have hout : s.out ++ [.lineInit, .arm s.cfg.settleUs] = s.out ++ [.lineInit] ++ [.arm s.cfg.settleUs] :=
    List.append_cons ..
  rw [hout]; rfl

/-- Settles O14: the action of `Init` field by field, and outside `Idle` the one flag. -/
theorem startEffect : Obligations.StartEffect :=
  ⟨rfl, fun s => ⟨fun hs => (exec_start_idle hs).trans (congrArg _ (initEntered_eq s)), exec_start_running⟩⟩

/-- STOP in `Idle` requests nothing (R172). -/
theorem exec_stop_idle {s : State} (h : s.state = .idle) : exec .stop s = .next (s.respond .ok) := by
  simp [exec, execStop, State.requestStop, h]

/-- STOP in a running state sets the request (R172, R176). -/
theorem exec_stop_running {s : State} (h : s.state ≠ .idle) :
    exec .stop s = .next ((s.setStopReq true).respond .ok) := by
  simp [exec, execStop, State.requestStop, h]

/-- Settles O15: by whether STOP finds `Idle`. -/
theorem stopEffect : Obligations.StopEffect := fun _ => ⟨exec_stop_idle, exec_stop_running⟩

/-! ### SET and FADE -/

section
variable {c v : Nat} (f : Entry → Entry) (s : State)

/-- Step 3 of R75: an index that names no entry is refused, whatever the level (60_exceptions.md R192). -/
theorem hostWrite_errChannel (hc : c > 512) : hostWrite c v f s = .next (s.respond .errChannel) := by
  rw [hostWrite_eq, if_pos hc]; rfl

/-- Step 4 of R75: with a legal index, a level above the largest is refused. -/
theorem hostWrite_errValue (hc : c ≤ 512) (hv : v > 255) : hostWrite c v f s = .next (s.respond .errValue) := by
  rw [hostWrite_eq, if_neg (by omega), if_pos hv]; rfl

/-- With legal operands a host write replaces the entry it names and answers `OK` (R173, R174). -/
theorem hostWrite_performed (hc : c ≤ 512) (hv : v ≤ 255) :
    hostWrite c v f s = .next ((s.setStore (s.store.write c (f (s.store.read c)))).respond .ok) := by
  rw [hostWrite_eq, if_neg (by omega), if_neg (by omega)]

/-- A performed host write by what can be read afterwards: the entry it names is the new one, every other is kept. -/
theorem hostWrite_effect (hc : c ≤ 512) (hv : v ≤ 255) :
    ∃ m, hostWrite c v f s = .next { s with store := m, resps := s.resps ++ [.ok] } ∧
      m.read c = f (s.store.read c) ∧ ∀ j, j ≠ c → m.read j = s.store.read j :=
  ⟨_, hostWrite_performed f s hc hv, Memory.read_write_same _ _ _, fun _ hj => Memory.read_write_other _ _ hj⟩

/-- A host write, refused or performed, is answered once, and a refused one changes nothing else (R170). -/
theorem hostWrite_answers :
    ∃ t r, hostWrite c v f s = .next t ∧ t.resps = s.resps ++ [r] ∧ (r ≠ .ok → t = s.respond r) := by
  by_cases hc : c ≤ 512
  · by_cases hv : v ≤ 255
    · exact ⟨_, .ok, hostWrite_performed f s hc hv, rfl, fun hr => absurd rfl hr⟩
    · exact ⟨_, .errValue, hostWrite_errValue f s hc (by omega), rfl, fun _ => rfl⟩
  · exact ⟨_, .errChannel, hostWrite_errChannel f s (by omega), rfl, fun _ => rfl⟩

end

/-- Settles O16: SET is a host write of `setEntry`, which keeps `rem`. -/
theorem setEffect : Obligations.SetEffect := by
  intro c v s hc hv
  obtain ⟨m, hexec, hread, hother⟩ := hostWrite_effect (fun e => setEntry e v) s hc hv
  obtain ⟨hcur, -⟩ := setEntry_at_target (s.store.read c) hv
  refine ⟨m, hexec, ?_⟩
  rw [hread]
  exact ⟨hcur, toNat_level hv, rfl, hother⟩

/-- Settles O17: FADE is a host write of `fadeTo`, which keeps `cur`. -/
theorem fadeEffect : Obligations.FadeEffect := by
  intro c v t s hc hv ht
  obtain ⟨m, hexec, hread, hother⟩ := hostWrite_effect (fun e => fadeTo e v t) s hc hv
  refine ⟨m, hexec, ?_⟩
  rw [hread]
  exact ⟨rfl, toNat_level hv, fadeTo_rem _ v ht, hother⟩

/-- Settles O18: SET and FADE are host writes, which check the index and then the level. -/
theorem outOfRangeOperandsAreRefused : Obligations.OutOfRangeOperandsAreRefused := fun _ _ _ s =>
  ⟨fun hc => ⟨hostWrite_errChannel _ s hc, hostWrite_errChannel _ s hc⟩,
    fun hc hv => ⟨hostWrite_errValue _ s hc hv, hostWrite_errValue _ s hc hv⟩⟩

/-! ### One answer for every host word -/

/-- Every host command is answered once; START and STOP always with `OK` (R170). -/
theorem hostCommand_answers {i : Instr} (hi : i.context = .foreground) (s : State) :
    ∃ t r, exec i s = .next t ∧ t.resps = s.resps ++ [r] ∧ (r ≠ .ok → t = s.respond r) := by
  cases i with
  | start => exact (exec_start_ok s).imp fun t ⟨hexec, hresps⟩ => ⟨.ok, hexec, hresps, fun hr => absurd rfl hr⟩
  | stop => exact (exec_stop_ok s).imp fun t ⟨hexec, hresps⟩ => ⟨.ok, hexec, hresps, fun hr => absurd rfl hr⟩
  | set c v => exact hostWrite_answers _ s
  | fade c v d => exact hostWrite_answers _ s
  | evTimer | evByte => cases hi

/-- Settles O10: a word that the port does not take is answered `ERR_ILLEGAL`, any other as its command is, which keeps
the arrivals. -/
theorem oneAnswerForEveryHostWord : Obligations.OneAnswerForEveryHostWord := by
  intro s w rest hin
  cases hw : hostDecode w with
  | none => exact ⟨_, .errIllegal, step_cmd_illegal hin hw, rfl, rfl, fun _ => rfl⟩
  | some i =>
    obtain ⟨-, hi⟩ := hostDecode_eq_some_iff.1 hw
    obtain ⟨t, r, hexec, hresps, hrefused⟩ := hostCommand_answers hi (s.setInputs rest)
    obtain ⟨-, -, -, -, -, -, hinputs, -⟩ := hostCommandFrame i (s.setInputs rest) t hi hexec
    exact ⟨t, r, (step_cmd hin hw).trans hexec, hinputs, hresps, hrefused⟩

end Sys2Proof.Machine
end

section
/-! PROOFS. The statements of 60_exceptions.md: the step with nothing arriving, a delivery under a held lock (R196, R197),
and that with the invariants no step stops the machine (R193). -/

namespace Sys2Proof.Machine

open Sys2Proof

/-! ### The absence of a step -/

/-- Settles O8: with no arrival there is nothing to take. -/
theorem nothingArrivesNothingChanges : Obligations.NothingArrivesNothingChanges := fun _ hin => step_nil hin

/-! ### A delivery under a held lock -/

/-- With the lock held, the second half of a delivery does nothing (R196). -/
theorem runAction_locked {s : State} (hlock : s.lock = true) : runAction s = .next s := if_pos hlock

/-- With the lock held, a delivery is its transition's register writes alone (R197). -/
theorem deliver_locked {e : Event} {s : State} (hlock : s.lock = true) :
    deliver e s = applyTransition (transition s.cfg s.state e) s := by
  have hsuppressed (tr : Transition) : andThen (applyTransition tr s) runAction = applyTransition tr s := by
    cases hu : applyTransition tr s with
    | fault r => rfl
    | refused r => rfl
    | next u =>
      obtain ⟨-, -, hkept, -⟩ := applyTransition_frame hu
      exact runAction_locked (hkept.trans hlock)
  unfold deliver
  cases transition s.cfg s.state e with
  | ignore => rfl
  | goto p => exact hsuppressed (.goto p)
  | byteDone => exact hsuppressed .byteDone
  | bitElapsed => exact hsuppressed .bitElapsed

/-- With the lock held, an event is its bookkeeping and its transition's register writes. -/
theorem exec_event_locked {e : Event} {s : State} (hlock : s.lock = true) :
    exec e.instr s = applyTransition (transition s.cfg s.state e) (s.eventNoted e) := by
  rw [exec_event, deliver_locked (by simpa using hlock), State.eventNoted_cfg, State.eventNoted_state]

section
variable (e : Event) (s : State)

@[simp] theorem State.eventNoted_tmrDur : (s.eventNoted e).tmrDur = s.tmrDur := by cases e <;> simp [State.eventNoted]

/-- An event's bookkeeping arms no timer (40_fsm_sequencer.md R91). -/
theorem State.tmrArmed_of_eventNoted (h : (s.eventNoted e).tmrArmed = true) : s.tmrArmed = true := by
  cases e with
  | timerExpired => simp [State.eventNoted] at h
  | byteTransmitted => simpa [State.eventNoted] using h

/-- An event's bookkeeping sends no byte (R92). -/
theorem State.uartBusy_of_eventNoted (h : (s.eventNoted e).uartBusy = true) : s.uartBusy = true := by
  cases e with
  | timerExpired => simpa [State.eventNoted] using h
  | byteTransmitted => simp [State.eventNoted] at h

end

/-- Under a held lock the timer's event still moves the sequencer from `Break` to `MarkAfterBreak` (R197). -/
theorem exec_evTimer_lineBreak_locked {s : State} (hlock : s.lock = true) (hs : s.state = .lineBreak) :
    exec .evTimer s = .next ((s.eventNoted .timerExpired).setState .markAfterBreak) := by
  refine (exec_event_locked (e := .timerExpired) hlock).trans ?_
  rw [hs]; rfl

/-- Settles O32: under a held lock only the bookkeeping and the register writes are left, which start nothing. -/
theorem heldLockSuppressesTheAction : Obligations.HeldLockSuppressesTheAction := by
  intro s t hlock hexec
  obtain ⟨e, he⟩ : ∃ e : Event, exec e.instr s = .next t :=
    hexec.elim (fun h => ⟨.timerExpired, h⟩) fun h => ⟨.byteTransmitted, h⟩
  rw [exec_event_locked hlock] at he
  obtain ⟨-, htxbyte, hlock', hstop, harmed, hdur, hbusy, hline, hout, -, hstore, -⟩ := applyTransition_frame he
  refine ⟨by simpa using hout, by simpa using hline, by simpa using hstore, by simpa using htxbyte,
    by simpa using hstop, by simpa using hdur, by simpa [hlock] using hlock',
    fun h => s.tmrArmed_of_eventNoted e (harmed ▸ h), fun h => s.uartBusy_of_eventNoted e (hbusy ▸ h),
    fun hs htimer => ?_⟩
  rw [exec_evTimer_lineBreak_locked hlock hs] at htimer
  cases htimer
  rfl

/-! ### No step stops the machine -/

/-- Settles O44: a host word is always answered, an event is spurious or moves the machine on, and reset always
succeeds. -/
theorem noStepStopsTheMachine : Obligations.NoStepStopsTheMachine := by
  intro s hinv
  cases hin : s.inputs with
  | nil => exact ⟨s, step_nil hin⟩
  | cons a rest =>
    cases a with
    | cmd w =>
      obtain ⟨t, -, hstep, -⟩ := oneAnswerForEveryHostWord s w rest hin
      exact ⟨t, hstep⟩
    | event e =>
      cases hen : (Input.event e).agent.enabled s with
      | true =>
        obtain ⟨t, hstep, -⟩ := outstandingEventAdvancesThePosition s e rest hinv hin hen
        exact ⟨t, hstep⟩
      | false =>
        obtain ⟨-, hsources, -⟩ := inv_iff_byState.1 hinv
        exact ⟨_, (step_cons hin).trans (exec_event_spurious (s := s.setInputs rest) hsources hen)⟩
    | rst => exact ⟨_, step_cons hin⟩

end Sys2Proof.Machine
end

section
/-! PROOFS. The statements of 70_reset_and_hazards.md: the reset step writes every field (R230), and the durations of
the configuration do not steer the machine (R249). -/

namespace Sys2Proof

/-- A configuration with its durations forgotten; of `MARK_US` only whether it is zero is kept
(70_reset_and_hazards.md R249). -/
def Config.timeless (c : Config) : Config :=
  { c with settleUs := 0, mbbUs := 0, breakUs := 0, mabUs := 0, markUs := if c.markUs = 0 then 0 else 1 }

section
variable (c : Config)

@[simp] theorem Config.timeless_txMode : c.timeless.txMode = c.txMode := rfl
@[simp] theorem Config.timeless_initScene : c.timeless.initScene = c.initScene := rfl
@[simp] theorem Config.timeless_lastBit : c.timeless.lastBit = c.lastBit := rfl
@[simp] theorem Config.timeless_timeless : c.timeless.timeless = c.timeless := by
  unfold Config.timeless; split <;> rfl

/-- Whether there is an inter-byte mark is no duration. -/
theorem Config.timeless_markUs_pos : 0 < c.timeless.markUs.toNat ↔ 0 < c.markUs.toNat := by
  unfold Config.timeless
  split
  next h => simp [h]
  next h =>
    have hpos : 0 < c.markUs.toNat := Nat.pos_of_ne_zero fun h0 => h (BitVec.eq_of_toNat_eq h0)
    simp [hpos]

end

end Sys2Proof

namespace Sys2Proof.Machine

open Sys2Proof

/-! ### Reset -/

/-- Settles O13: the arrival is `rst`, and the reset step is the record written out. -/
theorem resetStepWritesEveryField : Obligations.ResetStepWritesEveryField := fun _ _ hin => step_cons hin

/-! ### A state with its durations forgotten

Two states agree but for durations exactly when they are the same once durations are forgotten, so that no duration
steers the machine says that forgetting them before an operation does not show in what it answers. -/

theorem sameButDurations_iff {c d : Config} : sameButDurations c d ↔ c.timeless = d.timeless := by
  have hmark : ((if c.markUs = 0 then 0 else 1 : Micros) = if d.markUs = 0 then 0 else 1) ↔
      (c.markUs = 0 ↔ d.markUs = 0) := by
    split <;> split <;> simp_all
  simp only [sameButDurations, Config.timeless, Config.mk.injEq, hmark]
  tauto

@[simp] theorem Action.shape_shape (a : Action) : a.shape.shape = a.shape := by cases a <;> rfl

@[simp] theorem Action.shape_arm (d : Micros) : (Action.arm d).shape = .arm 0 := rfl

/-- What an action does to the line is no duration. -/
@[simp] theorem Action.drives_shape (a : Action) : a.shape.drives = a.drives := by cases a <;> rfl

/-- A state with its durations forgotten: the configuration's, the timer's, the trace's and the ghost time (R249). -/
def State.timeless (s : State) : State :=
  { s with cfg := s.cfg.timeless, tmrDur := 0, vtimeUs := 0, out := s.out.map Action.shape }

theorem sameSequence_iff {s t : State} : sameSequence s t ↔ s.timeless = t.timeless := by
  simp only [sameSequence, sameButDurations_iff, State.timeless, State.mk.injEq]
  tauto

section
variable (s : State)

/-! What the forgetting keeps of a field that an operation looks at. -/

@[simp] theorem State.timeless_cfg : s.timeless.cfg = s.cfg.timeless := rfl
@[simp] theorem State.timeless_state : s.timeless.state = s.state := rfl
@[simp] theorem State.timeless_slot : s.timeless.slot = s.slot := rfl
@[simp] theorem State.timeless_bit : s.timeless.bit = s.bit := rfl
@[simp] theorem State.timeless_txbyte : s.timeless.txbyte = s.txbyte := rfl
@[simp] theorem State.timeless_lock : s.timeless.lock = s.lock := rfl
@[simp] theorem State.timeless_stopReq : s.timeless.stopReq = s.stopReq := rfl
@[simp] theorem State.timeless_store : s.timeless.store = s.store := rfl

@[simp] theorem State.timeless_timeless : s.timeless.timeless = s.timeless := by
  simp [State.timeless]

/-! Each named update commutes with the forgetting. -/

@[simp] theorem State.timeless_setState (p : FsmState) : (s.setState p).timeless = s.timeless.setState p := rfl
@[simp] theorem State.timeless_setSlot (n : BitVec 10) : (s.setSlot n).timeless = s.timeless.setSlot n := rfl
@[simp] theorem State.timeless_setBit (n : BitVec 4) : (s.setBit n).timeless = s.timeless.setBit n := rfl
@[simp] theorem State.timeless_setTxbyte (b : Byte) : (s.setTxbyte b).timeless = s.timeless.setTxbyte b := rfl
@[simp] theorem State.timeless_setStore (m : Memory) : (s.setStore m).timeless = s.timeless.setStore m := rfl
@[simp] theorem State.timeless_setLock (b : Bool) : (s.setLock b).timeless = s.timeless.setLock b := rfl
@[simp] theorem State.timeless_setStopReq (b : Bool) : (s.setStopReq b).timeless = s.timeless.setStopReq b := rfl
@[simp] theorem State.timeless_setBusy : s.setBusy.timeless = s.timeless.setBusy := rfl
@[simp] theorem State.timeless_respond (r : Resp) : (s.respond r).timeless = s.timeless.respond r := rfl

/-- Of an action, the trace without durations holds the shape. -/
@[simp] theorem State.timeless_emit (a : Action) : (s.emit a).timeless = s.timeless.emit a.shape := by
  simp [State.timeless, State.emit]

/-- The duration of an arming is forgotten, the arming is not. -/
@[simp] theorem State.timeless_arm (d : Micros) : (s.arm d).timeless = s.timeless.arm 0 := by
  simp [State.timeless, State.arm]

end

/-! ### What no duration steers -/

/-- A next state with its durations forgotten; a fault and a refusal as they are. -/
def timelessResult (o : Result) : Result := andThen o fun s => .next s.timeless

@[simp] theorem timelessResult_next (s : State) : timelessResult (.next s) = .next s.timeless := rfl
@[simp] theorem timelessResult_fault (r : Fault) : timelessResult (.fault r) = .fault r := rfl
@[simp] theorem timelessResult_refused (r : Refusal) : timelessResult (.refused r) = .refused r := rfl

theorem timelessResult_eq_fault_iff {o : Result} {r : Fault} : timelessResult o = .fault r ↔ o = .fault r := by
  cases o <;> simp

theorem timelessResult_eq_refused_iff {o : Result} {r : Refusal} : timelessResult o = .refused r ↔ o = .refused r := by
  cases o <;> simp

/-- No duration steers the operation: it answers the same but for durations when they are forgotten before it. -/
def UnsteeredByDurations (f : State → Result) : Prop := ∀ s, timelessResult (f s.timeless) = timelessResult (f s)

/-- An unsteered operation takes states that agree but for durations to answers that do. -/
theorem UnsteeredByDurations.congr {f : State → Result} (hf : UnsteeredByDurations f) {s t : State}
    (h : s.timeless = t.timeless) : timelessResult (f s) = timelessResult (f t) := by
  rw [← hf s, h, hf t]

/-- Answers that agree but for durations stay so under an unsteered operation. -/
theorem UnsteeredByDurations.andThen_congr {g : State → Result} (hg : UnsteeredByDurations g) {o o' : Result}
    (h : timelessResult o = timelessResult o') : timelessResult (andThen o g) = timelessResult (andThen o' g) := by
  cases o with
  | next s =>
    obtain ⟨t, rfl, ht⟩ := andThen_next_iff.1 h.symm
    exact hg.congr (Host.Outcome.next.inj ht).symm
  | fault r => rw [timelessResult_eq_fault_iff.1 h.symm]
  | refused r => rw [timelessResult_eq_refused_iff.1 h.symm]

/-- Unsteered operations in sequence are unsteered. -/
theorem UnsteeredByDurations.andThen {f g : State → Result} (hf : UnsteeredByDurations f)
    (hg : UnsteeredByDurations g) : UnsteeredByDurations fun s => andThen (f s) g :=
  fun s => hg.andThen_congr (hf s)

/-- A register update that does not depend on durations is unsteered. -/
theorem unsteered_update {g : State → State} (hg : ∀ s, (g s.timeless).timeless = (g s).timeless) :
    UnsteeredByDurations fun s => .next (g s) :=
  fun s => congrArg Host.Outcome.next (hg s)

/-! ### The actions -/

theorem timeless_actMarkBeforeBreak (s : State) :
    (actMarkBeforeBreak s.timeless).timeless = (actMarkBeforeBreak s).timeless := by
  cases hstop : s.stopReq <;> simp [actMarkBeforeBreak, hstop]

theorem timeless_actBreak (s : State) : (actBreak s.timeless).timeless = (actBreak s).timeless := by
  cases hm : s.cfg.txMode <;> simp [actBreak, hm]

theorem timeless_actUpdate (s : State) : (actUpdate s.timeless).timeless = (actUpdate s).timeless :=
  timeless_actMarkBeforeBreak ((s.setStore (fadeSweep s.store s.cfg.deltaMs)).setState .markBeforeBreak)

theorem unsteered_latchByte : UnsteeredByDurations latchByte := by
  intro s
  unfold latchByte readEntry
  by_cases h : s.slot.toNat ≤ channelCount <;> simp [h]

theorem unsteered_uartSend : UnsteeredByDurations fun s => .next (uartSend s) :=
  unsteered_update fun s => by simp [uartSend]

theorem unsteered_driveCell : UnsteeredByDurations fun s => .next (driveCell s) :=
  unsteered_update fun s => by simp [driveCell]

/-- The byte transmitter looks at the mode, at `bit` and at the number of stop bits, and at no duration
(41_byte_transmit.md R130). -/
theorem unsteered_txAction : UnsteeredByDurations txAction := by
  intro s
  have hsend := unsteered_latchByte.andThen unsteered_uartSend s
  have hdrive := unsteered_latchByte.andThen unsteered_driveCell s
  unfold txAction
  rw [State.timeless_cfg, Config.timeless_txMode, Config.timeless_lastBit, State.timeless_bit]
  cases s.cfg.txMode with
  | uart => exact hsend
  | bitbang =>
    dsimp only
    split
    · exact hdrive
    · split
      · exact unsteered_driveCell s
      · rfl

/-- An action arms the timer with a duration at most, and looks at none (40_fsm_sequencer.md R93). -/
theorem unsteered_action : UnsteeredByDurations action := by
  intro s
  unfold action
  rw [State.timeless_state]
  cases s.state with
  | idle => simp
  | init => simp [actInit]
  | markBeforeBreak => simp [timeless_actMarkBeforeBreak]
  | lineBreak => simp [timeless_actBreak]
  | markAfterBreak => simp [actMarkAfterBreak]
  | txStartCode => exact unsteered_txAction s
  | txStartMark => simp [actMark]
  | txByte => exact unsteered_txAction s
  | txMark => simp [actMark]
  | update => simp [timeless_actUpdate]
  | reserved k => rfl

theorem unsteered_setLock (b : Bool) : UnsteeredByDurations fun s => .next (s.setLock b) :=
  unsteered_update fun s => by simp

theorem unsteered_lockedAction : UnsteeredByDurations lockedAction :=
  (unsteered_setLock true).andThen unsteered_action |>.andThen (unsteered_setLock false)

theorem unsteered_runAction : UnsteeredByDurations runAction := by
  intro s
  have hrun := unsteered_lockedAction s
  cases hlock : s.lock <;> simp [runAction, hlock, hrun]

/-! ### The transitions -/

/-- The state after a byte asks of `MARK_US` only whether it is zero (R135). -/
@[simp] theorem afterByte_timeless (s : State) : afterByte s.timeless = afterByte s :=
  if_congr s.cfg.timeless_markUs_pos rfl rfl

/-- The acceptance table looks at the mode alone (40_fsm_sequencer.md R112). -/
@[simp] theorem transition_timeless (c : Config) (p : FsmState) (e : Event) :
    transition c.timeless p e = transition c p e := rfl

theorem unsteered_byteDone : UnsteeredByDurations byteDone := by
  intro s
  unfold byteDone
  rw [State.timeless_slot]
  split
  · simp
  · split <;> simp

theorem unsteered_bitElapsed : UnsteeredByDurations bitElapsed := by
  intro s
  have hdone := unsteered_byteDone s
  unfold bitElapsed
  rw [State.timeless_cfg, Config.timeless_lastBit, State.timeless_bit]
  split
  · simp
  · split <;> simp [hdone]

theorem unsteered_applyTransition (tr : Transition) : UnsteeredByDurations (applyTransition tr) := by
  cases tr with
  | ignore => exact unsteered_update fun s => by simp
  | goto p => exact unsteered_update fun s => by simp
  | byteDone => exact unsteered_byteDone
  | bitElapsed => exact unsteered_bitElapsed

theorem unsteered_deliver (e : Event) : UnsteeredByDurations (deliver e) := by
  intro s
  have haccepted (tr : Transition) := (unsteered_applyTransition tr).andThen unsteered_runAction s
  unfold deliver
  rw [State.timeless_cfg, State.timeless_state, transition_timeless]
  cases transition s.cfg s.state e with
  | ignore => simp
  | goto p => exact haccepted (.goto p)
  | byteDone => exact haccepted .byteDone
  | bitElapsed => exact haccepted .bitElapsed

/-! ### The operations and the step -/

/-- An event's bookkeeping counts time, which is forgotten, and clears a flag (R91, R92). -/
theorem timeless_eventNoted (e : Event) (s : State) :
    (s.timeless.eventNoted e).timeless = (s.eventNoted e).timeless := by
  cases e with
  | timerExpired =>
    rw [eventNoted_timer, eventNoted_timer]
    simp [State.timeless]
  | byteTransmitted =>
    rw [eventNoted_byte, eventNoted_byte]
    simp [State.timeless]

theorem unsteered_event (e : Event) : UnsteeredByDurations (exec e.instr) := by
  have h := (unsteered_update (timeless_eventNoted e)).andThen (unsteered_deliver e)
  intro s
  rw [exec_event, exec_event]
  exact h s

theorem unsteered_respond (r : Resp) : UnsteeredByDurations fun s => .next (s.respond r) :=
  unsteered_update fun s => by simp

theorem unsteered_start : UnsteeredByDurations execStart := by
  intro s
  have henter : UnsteeredByDurations fun u => .next ((u.setStopReq false).setState .init) :=
    unsteered_update fun u => by simp
  unfold execStart
  rw [State.timeless_state]
  split
  · exact (henter.andThen unsteered_lockedAction).andThen (unsteered_respond .ok) s
  · simp

theorem unsteered_stop : UnsteeredByDurations execStop := by
  intro s
  by_cases h : s.state = .idle <;> simp [execStop, State.requestStop, h]

theorem unsteered_hostWrite (c v : Nat) (f : Entry → Entry) : UnsteeredByDurations (hostWrite c v f) := by
  intro s
  rw [hostWrite_eq, hostWrite_eq]
  split
  · exact unsteered_respond .errChannel s
  · split
    · exact unsteered_respond .errValue s
    · simp

theorem unsteered_exec (i : Instr) : UnsteeredByDurations (exec i) := by
  cases i with
  | start => exact unsteered_start
  | stop => exact unsteered_stop
  | set c v => exact unsteered_hostWrite c v _
  | fade c v t => exact unsteered_hostWrite c v _
  | evTimer => exact unsteered_event .timerExpired
  | evByte => exact unsteered_event .byteTransmitted

theorem unsteered_reset : UnsteeredByDurations fun s => .next (doReset s) :=
  unsteered_update fun s => by simp [State.timeless, doReset]

theorem unsteered_arrive (a : Input) : UnsteeredByDurations (arrive a) := by
  intro s
  cases a with
  | cmd w =>
    dsimp only [arrive]
    cases hostDecode w with
    | some i => exact unsteered_exec i s
    | none => exact unsteered_respond .errIllegal s
  | event e => exact unsteered_event e s
  | rst => exact unsteered_reset s

/-- No duration steers a step: the schedule of arrivals holds none, and what an arrival runs looks at none. -/
theorem unsteered_step : UnsteeredByDurations step := by
  intro s
  cases hin : s.inputs with
  | nil => rw [step_nil hin, step_nil (s := s.timeless) hin]; simp
  | cons a rest =>
    rw [step_cons hin, step_cons (s := s.timeless) hin]
    exact unsteered_arrive a (s.setInputs rest)

/-- Settles O41: no duration steers a step, and two states that agree but for durations are the same state once these
are forgotten. -/
theorem durationsDoNotSteerTheMachine : Obligations.DurationsDoNotSteerTheMachine := by
  intro s t hst
  have hsteps := unsteered_step.congr (sameSequence_iff.1 hst)
  refine ⟨fun s' hs => ?_, fun r hs => ?_, fun r hs => ?_⟩ <;> rw [hs] at hsteps
  · obtain ⟨t', ht, heq⟩ := andThen_next_iff.1 hsteps.symm
    exact ⟨t', ht, sameSequence_iff.2 (Host.Outcome.next.inj heq).symm⟩
  · exact timelessResult_eq_fault_iff.1 hsteps.symm
  · exact timelessResult_eq_refused_iff.1 hsteps.symm

end Sys2Proof.Machine
end
